-- ==== Sys2Proof/Word.lean ====
section
/-! DEFINITION. The words of the OL-2240: bytes, addresses, times, bytes on a link, line images and byte masks. -/

namespace Sys2Proof

/-- One byte of a message, a frame, the image or a line. -/
abbrev Byte := BitVec 8

/-- A 40-bit upstream or downstream byte address (00_scope.md, Conventions, "Addresses").
A line address is an `Addr` whose low six bits are 0. -/
abbrev Addr := BitVec 40

/-- A value of the 32-bit microsecond counter (R193). -/
abbrev Time := BitVec 32

/-- A byte on an upstream link with its ninth bit, the parity bit (Section 11.1). -/
structure LinkByte where
  data : Byte
  parity : Bool
  deriving DecidableEq, Repr

/-- The 64 per-byte flags of a downstream request, one for each line position
(00_scope.md, "Byte mask"). -/
abbrev Mask := Vector Bool 64

/-- A 64-byte line image, position 0 first. -/
abbrev LineData := Vector Byte 64

end Sys2Proof
end

