-- ==== Sys2Proof/Syntax.lean ====
section
/-! DEFINITION. The commands of the OL-2240: one constructor for each row of spec/opcode_table.json.
A row that is the arrival of a message, a frame or the image carries the bytes as they arrive
(log 15); a row that is an event of one record names the record. -/

namespace Sys2Proof

/-- The two upstream ports. -/
inductive PortId where
  | a
  | b
  deriving DecidableEq, Repr

/-- Slots are numbered 0 to 3 (Section 6.1). -/
abbrev SlotId := Fin 4
/-- Streams are numbered 0 to 3 (Section 4.1). -/
abbrev StreamId := Fin 4
/-- Pool lines are numbered 0 to 15 (Section 4.1). -/
abbrev LineId := Fin 16
/-- Windows are numbered 0 to 7 (Section 1). -/
abbrev WindowId := Fin 8

/-- Bytes 0 to 16 of a window record as carried (Table 11-7), the two addresses put together. -/
structure WindowBytes where
  base : Addr
  sizeCode : Byte
  targetBase : Addr
  writeAccess : Byte
  readOrder : Byte
  depth : Byte
  laneOrder : Byte
  retryCode : Byte
  faultAction : Byte
  deriving DecidableEq, Repr

/-- Parameter bytes 0 to 6 as carried (Table 11-8). -/
structure ParamBytes where
  responseTimeout : BitVec 16
  backoff : Byte
  idle : Byte
  highWater : Byte
  writeA : Byte
  requestA : Byte
  deriving DecidableEq, Repr

/-- The commands: one constructor for each row of spec/opcode_table.json. -/
inductive Instr where
  /-- POWER_ON_RESET_ASSERT (R184). -/
  | powerOnResetAssert
  /-- POWER_ON_RESET_RELEASE (R184). -/
  | powerOnResetRelease
  /-- LOAD_END (R188, R189): `flash` is what the flash shifts out from address 0; a byte beyond it is
  one the flash does not drive, read as all ones (R185). -/
  | loadEnd (flash : List Byte)
  /-- WARM_RESET_ASSERT (R191). -/
  | warmResetAssert
  /-- WARM_RESET_RELEASE (R191). -/
  | warmResetRelease
  /-- PORT_RESET_ASSERT (R148). -/
  | portResetAssert (port : PortId)
  /-- LINK_READY_LOSS (R148). -/
  | linkReadyLoss (port : PortId)
  /-- PORT_RESET_RELEASE (R131). -/
  | portResetRelease (port : PortId)
  /-- LINK_READY_ARRIVAL (R131). -/
  | linkReadyArrival (port : PortId)
  /-- REQUEST_READ (R49): the message's bytes after a kind byte of 01H. -/
  | requestRead (port : PortId) (rest : List LinkByte)
  /-- REQUEST_WRITE (R23): the message's bytes after a kind byte of 02H. -/
  | requestWrite (port : PortId) (rest : List LinkByte)
  /-- REQUEST_FENCE (R95): the message's bytes after a kind byte of 03H. -/
  | requestFence (port : PortId) (rest : List LinkByte)
  /-- GRANT (R123). -/
  | grant
  /-- RESPONSE (R112): the message's bytes, the type byte first (Table 11-5). -/
  | response (message : List Byte)
  /-- SLOT_DEADLINE (R117). -/
  | slotDeadline (slot : SlotId)
  /-- WRITE_BACKOFF_END (R31). -/
  | writeBackoffEnd
  /-- READ_BACKOFF_END (R57): the read is named by its port and tag (R48). -/
  | readBackoffEnd (port : PortId) (tag : Byte)
  /-- FETCH_BACKOFF_END (R84). -/
  | fetchBackoffEnd (line : LineId)
  /-- IDLE_EXPIRY (R88). -/
  | idleExpiry (stream : StreamId)
  /-- COMPLETION_BEGIN (R145). -/
  | completionBegin (port : PortId)
  /-- COMPLETION_SENT (R65). -/
  | completionSent (port : PortId)
  /-- CREDIT_BEGIN (R141). -/
  | creditBegin (port : PortId)
  /-- CREDIT_SENT (R141). -/
  | creditSent (port : PortId)
  /-- SELECT_ASSERT (R166). -/
  | selectAssert
  /-- SELECT_RELEASE (R166). -/
  | selectRelease
  /-- LAST_BIT_OF_RESPONSE_SENT (R166). -/
  | lastBitOfResponseSent
  /-- UNKNOWN_COMMAND (R167): a code that names no command. -/
  | unknownCommand (code : Byte)
  /-- GET_STATUS (R170). -/
  | getStatus
  /-- GET_WINDOW (R171). -/
  | getWindow (n : Byte)
  /-- SET_WINDOW (R15). -/
  | setWindow (n : Byte) (record : WindowBytes)
  /-- ENABLE_WINDOW (R12). -/
  | enableWindow (n : Byte)
  /-- DISABLE_WINDOW (R13). -/
  | disableWindow (n : Byte)
  /-- THAW_WINDOW (R14). -/
  | thawWindow (n : Byte)
  /-- GET_CATCHALL (R171). -/
  | getCatchall
  /-- SET_CATCHALL (R15). -/
  | setCatchall (mode : Byte) (retryCode : Byte)
  /-- GET_PARAMS (R171). -/
  | getParams
  /-- SET_PARAMS (R173). -/
  | setParams (params : ParamBytes)
  /-- SET_ALERT_MASK (R175). -/
  | setAlertMask (mask : Byte)
  /-- PEEK_LOG (R157). -/
  | peekLog
  /-- POP_LOG (R158). -/
  | popLog
  /-- CLEAR_OVERFLOW (R159). -/
  | clearOverflow
  /-- RECLAIM_SLOTS (R126). -/
  | reclaimSlots
  /-- QUIESCE (R178). -/
  | quiesce
  /-- RESUME (R181). -/
  | resume
  /-- REQUEST_OF_NO_KNOWN_KIND (R194): the whole message, whose byte 0 is no known kind, or which has
  no bytes. -/
  | requestOfNoKnownKind (port : PortId) (message : List LinkByte)
  deriving DecidableEq, Repr

end Sys2Proof
end

