-- ==== Sys2Proof/WellFormed.lean ====
section
/-! DEFINITION. Which commands are the row they are written as: two rows are told from the others by a byte they carry. -/

namespace Sys2Proof

/-- Byte 0 of a REQUEST names READ, WRITE or FENCE (Table 11-1). -/
def knownKind (kind : Byte) : Bool :=
  kind == 0x01 || kind == 0x02 || kind == 0x03

/-- The code names a maintenance command (Table 11-6). -/
def knownCode (code : Byte) : Bool :=
  decide (1 ≤ code.toNat) && decide (code.toNat ≤ 0x11)

/-- REQUEST_OF_NO_KNOWN_KIND carries a message of no known kind, or of no bytes (R194);
UNKNOWN_COMMAND carries a code that names no command (R167). Every other command is well formed:
whatever its bytes, the part has a rule for them. -/
def Instr.wellFormed : Instr → Bool
  | .requestOfNoKnownKind _ [] => true
  | .requestOfNoKnownKind _ (first :: _) => !knownKind first.data
  | .unknownCommand code => !knownCode code
  | .powerOnResetAssert => true
  | .powerOnResetRelease => true
  | .loadEnd _ => true
  | .warmResetAssert => true
  | .warmResetRelease => true
  | .portResetAssert _ => true
  | .linkReadyLoss _ => true
  | .portResetRelease _ => true
  | .linkReadyArrival _ => true
  | .requestRead _ _ => true
  | .requestWrite _ _ => true
  | .requestFence _ _ => true
  | .grant => true
  | .response _ => true
  | .slotDeadline _ => true
  | .writeBackoffEnd => true
  | .readBackoffEnd _ _ => true
  | .fetchBackoffEnd _ => true
  | .idleExpiry _ => true
  | .completionBegin _ => true
  | .completionSent _ => true
  | .creditBegin _ => true
  | .creditSent _ => true
  | .selectAssert => true
  | .selectRelease => true
  | .lastBitOfResponseSent => true
  | .getStatus => true
  | .getWindow _ => true
  | .setWindow _ _ => true
  | .enableWindow _ => true
  | .disableWindow _ => true
  | .thawWindow _ => true
  | .getCatchall => true
  | .setCatchall _ _ => true
  | .getParams => true
  | .setParams _ => true
  | .setAlertMask _ => true
  | .peekLog => true
  | .popLog => true
  | .clearOverflow => true
  | .reclaimSlots => true
  | .quiesce => true
  | .resume => true

end Sys2Proof
end

