-- ==== Sys2Proof/Decode.lean ====
section
/-! DEFINITION. The table gives no row any bits, so no word spells a command (log 26). The maintenance frames have an
encoding of their own (Table 11-6); their encoder and decoder stand here. -/

namespace Sys2Proof

/-- The command that a word spells by spec/opcode_table.json's bits: the table gives none. -/
def decodeTableWord (_nbits _w : Nat) : Option Instr :=
  none

/-- The byte at a position; a missing byte reads as 00H (R194, R195). -/
def byteAt (bytes : List Byte) (i : Nat) : Byte :=
  bytes.getD i 0

/-- Two bytes, most significant first (Section 11, opening). -/
def halfAt (bytes : List Byte) (i : Nat) : BitVec 16 :=
  byteAt bytes i ++ byteAt bytes (i + 1)

/-- A 40-bit address in five bytes, most significant first (Section 11, opening). -/
def addrAt (bytes : List Byte) (i : Nat) : Addr :=
  byteAt bytes i ++ byteAt bytes (i + 1) ++ byteAt bytes (i + 2) ++ byteAt bytes (i + 3) ++
    byteAt bytes (i + 4)

/-- The two bytes of a 16-bit field, most significant first. -/
def halfBytes (h : BitVec 16) : List Byte :=
  [h.extractLsb' 8 8, h.extractLsb' 0 8]

/-- The four bytes of a 32-bit field, most significant first. -/
def timeBytes (t : Time) : List Byte :=
  [t.extractLsb' 24 8, t.extractLsb' 16 8, t.extractLsb' 8 8, t.extractLsb' 0 8]

/-- The five bytes of a 40-bit address, most significant first. -/
def addrBytes (a : Addr) : List Byte :=
  [a.extractLsb' 32 8, a.extractLsb' 24 8, a.extractLsb' 16 8, a.extractLsb' 8 8,
    a.extractLsb' 0 8]

/-- Bytes 0 to 16 of a window record (Table 11-7), read from `i` on. -/
def windowBytesAt (bytes : List Byte) (i : Nat) : WindowBytes where
  base := addrAt bytes i
  sizeCode := byteAt bytes (i + 5)
  targetBase := addrAt bytes (i + 6)
  writeAccess := byteAt bytes (i + 11)
  readOrder := byteAt bytes (i + 12)
  depth := byteAt bytes (i + 13)
  laneOrder := byteAt bytes (i + 14)
  retryCode := byteAt bytes (i + 15)
  faultAction := byteAt bytes (i + 16)

/-- Bytes 0 to 16 of a window record (Table 11-7), as carried. -/
def WindowBytes.bytes (w : WindowBytes) : List Byte :=
  addrBytes w.base ++ [w.sizeCode] ++ addrBytes w.targetBase ++
    [w.writeAccess, w.readOrder, w.depth, w.laneOrder, w.retryCode, w.faultAction]

/-- Parameter bytes 0 to 6 (Table 11-8), read from `i` on. -/
def paramBytesAt (bytes : List Byte) (i : Nat) : ParamBytes where
  responseTimeout := halfAt bytes i
  backoff := byteAt bytes (i + 2)
  idle := byteAt bytes (i + 3)
  highWater := byteAt bytes (i + 4)
  writeA := byteAt bytes (i + 5)
  requestA := byteAt bytes (i + 6)

/-- Parameter bytes 0 to 6 (Table 11-8), as carried. -/
def ParamBytes.bytes (p : ParamBytes) : List Byte :=
  halfBytes p.responseTimeout ++ [p.backoff, p.idle, p.highWater, p.writeA, p.requestA]

/-- Argument bytes that a code calls for (Table 11-6); none for a code that names no command. -/
def argumentCount (code : Byte) : Option Nat :=
  match code.toNat with
  | 0x01 => some 0 | 0x02 => some 1 | 0x03 => some 18 | 0x04 => some 1 | 0x05 => some 1
  | 0x06 => some 1 | 0x07 => some 0 | 0x08 => some 2 | 0x09 => some 0 | 0x0A => some 7
  | 0x0B => some 1 | 0x0C => some 0 | 0x0D => some 0 | 0x0E => some 0 | 0x0F => some 0
  | 0x10 => some 0 | 0x11 => some 0
  | _ => none

/-- The maintenance command with a code and its argument bytes (Table 11-6). -/
def commandOf (code : Byte) (args : List Byte) : Instr :=
  match code.toNat with
  | 0x01 => .getStatus
  | 0x02 => .getWindow (byteAt args 0)
  | 0x03 => .setWindow (byteAt args 0) (windowBytesAt args 1)
  | 0x04 => .enableWindow (byteAt args 0)
  | 0x05 => .disableWindow (byteAt args 0)
  | 0x06 => .thawWindow (byteAt args 0)
  | 0x07 => .getCatchall
  | 0x08 => .setCatchall (byteAt args 0) (byteAt args 1)
  | 0x09 => .getParams
  | 0x0A => .setParams (paramBytesAt args 0)
  | 0x0B => .setAlertMask (byteAt args 0)
  | 0x0C => .peekLog
  | 0x0D => .popLog
  | 0x0E => .clearOverflow
  | 0x0F => .reclaimSlots
  | 0x10 => .quiesce
  | 0x11 => .resume
  | _ => .unknownCommand code

/-- The command that the bytes of a command part spell: none while the part is not whole; as soon as
the code names no command, UNKNOWN_COMMAND (R167). Bytes after a whole command part are ignored
(R166). -/
def decodeCommandPart : List Byte → Option Instr
  | [] => none
  | code :: rest =>
    match argumentCount code with
    | none => some (.unknownCommand code)
    | some n => if rest.length < n then none else some (commandOf code (rest.take n))

/-- The command part of a maintenance command, code byte first (Table 11-6); no bytes for a command
that is not the maintenance port's. -/
def Instr.commandPart : Instr → List Byte
  | .unknownCommand code => [code]
  | .getStatus => [0x01]
  | .getWindow n => [0x02, n]
  | .setWindow n record => 0x03 :: n :: record.bytes
  | .enableWindow n => [0x04, n]
  | .disableWindow n => [0x05, n]
  | .thawWindow n => [0x06, n]
  | .getCatchall => [0x07]
  | .setCatchall mode retryCode => [0x08, mode, retryCode]
  | .getParams => [0x09]
  | .setParams params => 0x0A :: params.bytes
  | .setAlertMask mask => [0x0B, mask]
  | .peekLog => [0x0C]
  | .popLog => [0x0D]
  | .clearOverflow => [0x0E]
  | .reclaimSlots => [0x0F]
  | .quiesce => [0x10]
  | .resume => [0x11]
  | .powerOnResetAssert => []
  | .powerOnResetRelease => []
  | .loadEnd _ => []
  | .warmResetAssert => []
  | .warmResetRelease => []
  | .portResetAssert _ => []
  | .linkReadyLoss _ => []
  | .portResetRelease _ => []
  | .linkReadyArrival _ => []
  | .requestRead _ _ => []
  | .requestWrite _ _ => []
  | .requestFence _ _ => []
  | .grant => []
  | .response _ => []
  | .slotDeadline _ => []
  | .writeBackoffEnd => []
  | .readBackoffEnd _ _ => []
  | .fetchBackoffEnd _ => []
  | .idleExpiry _ => []
  | .completionBegin _ => []
  | .completionSent _ => []
  | .creditBegin _ => []
  | .creditSent _ => []
  | .selectAssert => []
  | .selectRelease => []
  | .lastBitOfResponseSent => []
  | .requestOfNoKnownKind _ _ => []

end Sys2Proof
end

