-- ==== Sys2Proof/Config.lean ====
section
/-! DEFINITION. What the manual fixes for every part (Table 0-3) and the one free value. -/

namespace Sys2Proof.Config

/-- Write credits shared by the two ports: the capacity of the write queue (R22, R139). -/
abbrev writeCapacity : Nat := 32

/-- Request credits shared by the two ports: the capacity of the tracker (R46, R139). -/
abbrev requestCapacity : Nat := 16

/-- Records the error log stores (R155). -/
abbrev logCapacity : Nat := 8

/-- Where the log's overflow count stops (R155). -/
abbrev overflowLimit : Nat := 255

/-- Where a drop count and an UNLIMITED wait count stop (R11, R30). -/
abbrev countLimit : Nat := 65535

/-- Demand reads that may pass a waiting write (R124). -/
abbrev passedOverLimit : Nat := 4

/-- FREE value (log 9, DESIGN CHOICE of form): the byte at a position of a write record's image that is
outside its byte mask. The manual says only that such bytes are not meaningful, are sent, and are
not written (Table 2-1, R110, R195). The first argument numbers the image, the second is the line
position. It has no body: nothing can be proved about its value. -/
opaque unusedByte : Nat → Nat → Byte

end Sys2Proof.Config
end

