-- ==== Sys2Proof/Machine/State.lean ====
section
/-! DEFINITION. Everything the OL-2240 holds, block by block (Table 0-1), as plain data, and its value right after the
release of the power-on reset. -/

namespace Sys2Proof.Machine

/-! ## Named values -/

/-- Part state (R183). -/
inductive PartState where
  | loading
  | running
  deriving DecidableEq, Repr

/-- Window states (Table 1-4). -/
inductive WindowState where
  | disabled
  | enabled
  | frozen
  deriving DecidableEq, Repr

/-- Write access of a window (Table 1-1). -/
inductive WriteAccess where
  | writable
  | readOnly
  deriving DecidableEq, Repr

/-- Read order of a window (Table 1-1). -/
inductive ReadOrder where
  | relaxed
  | strict
  deriving DecidableEq, Repr

/-- Lane order of a window (Table 1-1). -/
inductive LaneOrder where
  | asIs
  | swap32
  | swap64
  deriving DecidableEq, Repr

/-- Retry limits: 0, 8, 64, UNLIMITED (Table 1-1). -/
inductive RetryLimit where
  | zero
  | eight
  | sixtyFour
  | unlimited
  deriving DecidableEq, Repr

/-- Fault action of a window: CONTINUE, FREEZE (Table 1-1). -/
inductive FaultAction where
  | goOn
  | freeze
  deriving DecidableEq, Repr

/-- Mode of the catch-all (R2). -/
inductive CatchMode where
  | pass
  | reject
  deriving DecidableEq, Repr

/-- The record of the window table that a request matched. -/
inductive WindowRef where
  | window (n : WindowId)
  | catchAll
  deriving DecidableEq, Repr

/-- Port states (Table 7-1). -/
inductive PortState where
  | down
  | active
  | faulted
  deriving DecidableEq, Repr

/-- Kind of the last message a port began to send (Table 7-1). -/
inductive LastSent where
  | completion
  | credit
  deriving DecidableEq, Repr

/-- Kinds of memory response (Table 11-5). -/
inductive RespKind where
  | ok
  | okPoison
  | wait
  | fault
  deriving DecidableEq, Repr

/-- Kinds of slot (Table 6-1). -/
inductive SlotKind where
  | write
  | demand
  | fetch
  deriving DecidableEq, Repr

/-- Completion statuses (Table 11-3). -/
inductive Status where
  | ok
  | poisoned
  | storedPoisoned
  | memFault
  | timeout
  | retrySpent
  | unmapped
  | frozen
  | readOnly
  | faulted
  deriving DecidableEq, Repr

/-- Causes of a failure at memory (Table 8-3). -/
inductive MemCause where
  | retrySpent
  | memFault
  | timeout
  deriving DecidableEq, Repr

/-- Reasons of a protocol error (Table 8-3). -/
inductive ProtocolCause where
  | creditOverrun
  | duplicateTag
  | lineCrossing
  | badLength
  | badKind
  deriving DecidableEq, Repr

/-- The part of the image that a BAD_FIELD names (R187). -/
inductive ImagePart where
  | window (n : WindowId)
  | catchAll
  | parameterBlock
  deriving DecidableEq, Repr

/-- Causes of a failed load (R186). -/
inductive LoadCause where
  | noFlash
  | badMarker
  | badVersion
  | badCount
  | badCheck
  | badField (part : ImagePart)
  deriving DecidableEq, Repr

/-- Load result (R190). -/
inductive LoadResult where
  | inProgress
  | ok
  | failed (cause : LoadCause)
  deriving DecidableEq, Repr

/-- Fence scope (Table 5-1). -/
inductive Scope where
  | port
  | all
  deriving DecidableEq, Repr

/-- Frame states of the maintenance port (Table 9-1). -/
inductive FrameState where
  | idle
  | receiving
  | answering
  | spent
  deriving DecidableEq, Repr

/-- Quiesce states (Table 9-3). -/
inductive QuiesceState where
  | running
  | quiescing
  | quiesced
  deriving DecidableEq, Repr

/-! ## Time -/

/-- A duration begun when the counter read `start` (R193). The manual's "deadline" is `start + span`;
both are kept, since a duration is measured as a difference and not compared as an absolute value
(R31, R117; log 8). -/
structure Timer where
  start : Time
  span : Time
  deriving DecidableEq, Repr

/-! ## Inputs and the Start-Up Unit -/

/-- Inputs of the whole part: `true` is asserted (R184, R191, R166). -/
structure Pins where
  powerOnReset : Bool
  warmReset : Bool
  select : Bool
  deriving DecidableEq, Repr

/-- The six programmable global parameters (Table 10-3). Port B's allocations are computed. -/
structure Params where
  responseTimeout : Nat
  backoff : Nat
  idle : Nat
  highWater : Nat
  writeA : Nat
  requestA : Nat
  deriving DecidableEq, Repr

/-- The alert mask: one enable for each cause (R162). -/
structure AlertMask where
  log : Bool
  freeze : Bool
  port : Bool
  deriving DecidableEq, Repr

/-- The flash lines (R185): select, the bytes shifted out to begin the read, and how many image bytes
the load has read (0 while it is in progress; log 17). -/
structure Flash where
  select : Bool
  out : List Byte
  bytesRead : Nat
  deriving DecidableEq, Repr

/-- The Start-Up Unit (Section 10). -/
structure StartUp where
  partState : PartState
  loadResult : LoadResult
  counter : Time
  params : Params
  mask : AlertMask
  flash : Flash
  deriving DecidableEq, Repr

/-! ## Window table -/

/-- The programmable fields of a window (Table 1-1). -/
structure WindowFields where
  base : Addr
  sizeCode : Nat
  targetBase : Addr
  access : WriteAccess
  order : ReadOrder
  depth : Nat
  lane : LaneOrder
  retry : RetryLimit
  fault : FaultAction
  deriving DecidableEq, Repr

/-- A window record (Table 1-1). -/
structure Window where
  state : WindowState
  fields : WindowFields
  dropCount : Nat
  deriving DecidableEq, Repr

/-- The catch-all record (R2). -/
structure CatchAll where
  mode : CatchMode
  retry : RetryLimit
  dropCount : Nat
  deriving DecidableEq, Repr

/-- The window table (Section 1). -/
structure WindowTable where
  windows : Vector Window 8
  catchAll : CatchAll
  deriving DecidableEq, Repr

/-! ## Write queue -/

/-- State of a write record (Table 2-1); the backoff deadline is present only in BACKOFF. -/
inductive RecordState where
  | queued
  | issued
  | backoff (deadline : Timer)
  deriving DecidableEq, Repr

/-- A write record (Table 2-1). `ackTag` is the tag of an acked write and absent for a posted one;
`link` is the place of its tracker entry while that entry lives; `place` is its place in the
acceptance order (R47), by which horizons and slots name it (log 19). -/
structure WriteRecord where
  place : Nat
  port : PortId
  window : WindowRef
  line : Addr
  mask : Mask
  data : LineData
  poison : Bool
  ackTag : Option Byte
  link : Option Nat
  retry : RetryLimit
  fault : FaultAction
  waitCount : Nat
  state : RecordState
  deriving DecidableEq, Repr

/-! ## Request tracker and fences -/

/-- The READ fields of a tracker entry (Table 3-1); the horizon holds places of write records. -/
structure ReadFields where
  window : WindowRef
  line : Addr
  mask : Mask
  offset : Nat
  length : Nat
  order : ReadOrder
  lane : LaneOrder
  retry : RetryLimit
  horizon : List Nat
  waitCount : Nat
  deriving DecidableEq, Repr

/-- The FENCE fields of a tracker entry (Table 5-1). -/
structure FenceFields where
  scope : Scope
  purge : Bool
  horizon : List Nat
  failedCount : Nat
  droppedSeen : Bool
  poisonedSeen : Bool
  deriving DecidableEq, Repr

/-- Kind of a tracker entry with the fields of that kind. -/
inductive EntryKind where
  | read (fields : ReadFields)
  | ackedWrite
  | fence (fields : FenceFields)
  deriving DecidableEq, Repr

/-- States of tracker entries (Table 3-2). The status and the data are present at DONE only. -/
inductive EntryState where
  | orderWait
  | ready
  | issued
  | backoff (deadline : Timer)
  | attached
  | queued
  | pending
  | done (status : Status) (data : List Byte)
  deriving DecidableEq, Repr

/-- A tracker entry (Table 3-1). The tracker keeps its entries in acceptance order. -/
structure Entry where
  place : Nat
  port : PortId
  tag : Byte
  kind : EntryKind
  state : EntryState
  deriving DecidableEq, Repr

/-! ## Read-ahead unit -/

/-- An ACTIVE stream record (Table 4-1). `nextLine` is a byte address that may be the end of the target
range, 2^40 included, so it is a number. -/
structure Stream where
  port : PortId
  window : WindowId
  depth : Nat
  nextLine : Nat
  owned : List LineId
  lastUse : Time
  deriving DecidableEq, Repr

/-- States of a line that is not FREE (R69). -/
inductive LineState where
  | pending (deadline : Option Timer)
  | fetching
  | valid (poison : Bool) (data : LineData)
  deriving DecidableEq, Repr

/-- A line record that is not FREE (Table 4-2). -/
structure Line where
  state : LineState
  stale : Bool
  target : Addr
  owner : Option StreamId
  retry : RetryLimit
  waitCount : Nat
  horizon : List Nat
  order : Nat
  attached : List Nat
  deriving DecidableEq, Repr

/-- The read-ahead unit (Section 4): `none` is a FREE stream or a FREE line, whose fields have no
meaning (R68, R69). -/
structure ReadAhead where
  streams : Vector (Option Stream) 4
  lines : Vector (Option Line) 16
  nextFetch : Nat
  deriving DecidableEq, Repr

/-! ## Memory port -/

/-- The owner of a BUSY slot, which gives its kind (R107). A WRITE names the place of its record, a
DEMAND the place of its entry, or none once that entry has been discarded, a FETCH its line. -/
inductive SlotOwner where
  | write (record : Nat)
  | demand (entry : Option Nat)
  | fetch (line : LineId)
  deriving DecidableEq, Repr

/-- A slot record (Table 6-1): each state with the fields present in it. -/
inductive Slot where
  | free
  | busy (owner : SlotOwner) (line : Addr) (deadline : Timer)
  | orphaned (kind : SlotKind) (line : Addr)
  deriving DecidableEq, Repr

/-- The memory port (Section 6). `lastRequest` is the message last sent on the memory link (log 14). -/
structure MemPort where
  slots : Vector Slot 4
  passedOver : Nat
  lastRequest : List Byte
  deriving DecidableEq, Repr

/-! ## Upstream ports -/

/-- The outbound link with the message on it (Table 7-1, Table 11-2). -/
inductive OutLink where
  | idle
  | sendingCompletion (message : List LinkByte)
  | sendingCredit (message : List LinkByte)
  deriving DecidableEq, Repr

/-- An upstream port with its two inputs (Table 7-1, R131). `done` is the completion order list: the
places of the port's DONE entries, oldest first (R63). -/
structure Port where
  resetInput : Bool
  linkReady : Bool
  state : PortState
  writeHeld : Nat
  writeOwed : Nat
  requestHeld : Nat
  requestOwed : Nat
  dropFlag : Bool
  done : List Nat
  link : OutLink
  lastSent : LastSent
  deriving DecidableEq, Repr

/-! ## Error log -/

/-- The nine kinds of log record with the fields of Table 8-2. -/
inductive LogEvent where
  | postedWriteFailed (port : PortId) (window : WindowRef) (line : Addr) (length : Nat)
      (waitCount : Nat) (cause : MemCause) (withdrawn : Option Nat)
  | unreportedWriteFailed (port : PortId) (window : WindowRef) (line : Addr) (length : Nat)
      (tag : Byte) (waitCount : Nat) (cause : MemCause)
  | writeParity (port : PortId) (window : WindowRef) (line : Addr) (length : Nat)
      (tag : Option Byte)
  | lateResponse (slot : SlotId) (kind : SlotKind) (line : Addr) (response : RespKind)
  | strayResponse (slot : SlotId) (response : RespKind)
  | portProtocol (port : PortId) (cause : ProtocolCause) (tag : Option Byte)
      (length : Option Byte)
  | warmResetLoss (records : Nat) (entries : Nat)
  | configFallback (cause : LoadCause)
  | slotReclaimed (count : Nat)
  deriving DecidableEq, Repr

/-- A log record: what happened and the counter value at the append (R152). -/
structure LogRecord where
  time : Time
  event : LogEvent
  deriving DecidableEq, Repr

/-- The error log, oldest record first (R155, R156). -/
structure ErrorLog where
  records : List LogRecord
  overflow : Nat
  deriving DecidableEq, Repr

/-! ## Maintenance port -/

/-- The frame handling (R166): its state, the command part taken in the present select period and the
response built for it, status byte first (log 13). -/
structure Maintenance where
  frame : FrameState
  commandPart : List Byte
  response : List Byte
  deriving DecidableEq, Repr

/-! ## The whole part -/

/-- The state of the part. The last two fields are the model's own: the commands that wait, first in
first out, and the counter that numbers the free values of write images (log 9). -/
structure State where
  pins : Pins
  startUp : StartUp
  table : WindowTable
  queue : List WriteRecord
  tracker : List Entry
  nextPlace : Nat
  readAhead : ReadAhead
  memPort : MemPort
  portA : Port
  portB : Port
  log : ErrorLog
  alertLine : Bool
  maint : Maintenance
  quiesce : QuiesceState
  pending : List Instr
  images : Nat
  deriving DecidableEq, Repr

/-- No command stops the part: the manual gives every command an effect in every state (log 24). The
type has no constructor, so `Host.Outcome.fault` cannot be answered. -/
inductive Fault where
  deriving DecidableEq, Repr

/-- Reasons a command is refused. -/
inductive Refusal where
  /-- Raised by an arm of exec for a command that has no meaning yet; no arm raises it. Safe. -/
  | notModelled (mnemonic : String)
  deriving DecidableEq, Repr

/-! ## Values at the release of the power-on reset -/

/-- The defaults of Table 10-3 (R192). -/
def Params.default : Params where
  responseTimeout := 500
  backoff := 4
  idle := 40
  highWater := 24
  writeA := 16
  requestA := 8

/-- All causes enabled (R162, R192). -/
def AlertMask.allEnabled : AlertMask where
  log := true
  freeze := true
  port := true

/-- The zero window record (R18). -/
def Window.zero : Window where
  state := .disabled
  fields :=
    { base := 0, sizeCode := 0, targetBase := 0, access := .writable, order := .relaxed,
      depth := 0, lane := .asIs, retry := .zero, fault := .goOn }
  dropCount := 0

/-- The catch-all of the fallback (R189). It also stands until the load ends: there the manual gives the
mode PASS alone, and the retry limit 8 is the model's choice (R184; log 3). -/
def CatchAll.fallback : CatchAll where
  mode := .pass
  retry := .eight
  dropCount := 0

/-- A port at power-on with its default credits (R151), for given levels of its inputs. -/
def Port.powerOn (resetInput linkReady : Bool) : Port where
  resetInput := resetInput
  linkReady := linkReady
  state := .down
  writeHeld := 0
  writeOwed := 16
  requestHeld := 0
  requestOwed := 8
  dropFlag := false
  done := []
  link := .idle
  lastSent := .completion

/-- The part right after the release of the power-on reset, the load in progress (R184). The levels of
the inputs are the model's choice (log 1), and so is the choice of this moment (log 2). -/
def State.reset : State where
  pins := { powerOnReset := false, warmReset := false, select := false }
  startUp :=
    { partState := .loading, loadResult := .inProgress, counter := 0,
      params := Params.default, mask := AlertMask.allEnabled,
      flash := { select := true, out := [0x03, 0x00, 0x00, 0x00], bytesRead := 0 } }
  table := { windows := Vector.replicate 8 Window.zero, catchAll := CatchAll.fallback }
  queue := []
  tracker := []
  nextPlace := 0
  readAhead :=
    { streams := Vector.replicate 4 none, lines := Vector.replicate 16 none, nextFetch := 0 }
  memPort := { slots := Vector.replicate 4 .free, passedOver := 0, lastRequest := [] }
  portA := Port.powerOn false false
  portB := Port.powerOn false false
  log := { records := [], overflow := 0 }
  alertLine := false
  maint := { frame := .idle, commandPart := [], response := [] }
  quiesce := .running
  pending := []
  images := 0

end Sys2Proof.Machine
end

