-- ==== Sys2Proof/Machine/Operands.lean ====
section
/-! DEFINITION. What the part reads from the bytes that reach it: requests (R194), responses (R195), window, catch-all and
parameter bytes (Tables 11-7, 11-8), the configuration image (R185 to R187), and the arithmetic they
need: lanes (R6 to R8), parity and the check word (R196). -/

namespace Sys2Proof.Machine

/-! ## Vectors built position by position -/

/-- The vector whose entry at position `i` is `f i`. -/
def vecOf {α : Type} (n : Nat) (f : Nat → α) : Vector α n :=
  ⟨⟨(List.range n).map f⟩, by simp⟩

/-- `f` at every position of a vector. -/
def mapVec {α β : Type} {n : Nat} (f : α → β) (v : Vector α n) : Vector β n :=
  ⟨⟨v.toArray.toList.map f⟩, by simp⟩

/-- The byte of a line at a position, 00H outside the 64 positions (never asked for). -/
def lineByte (data : LineData) (p : Nat) : Byte :=
  data.toArray.toList.getD p 0

/-! ## Lines, spans and lanes -/

/-- The line that holds an address: the address rounded down to a multiple of 64 (R6). -/
def lineOf (a : Addr) : Addr :=
  a &&& ~~~(63 : Addr)

/-- The offset of an address within its line (R6). -/
def offsetOf (a : Addr) : Nat :=
  a.toNat % 64

/-- Where a lane order sends a position (the table of Section 1.4). -/
def laneMap (lane : LaneOrder) (p : Nat) : Nat :=
  match lane with
  | .asIs => p
  | .swap32 => p - p % 4 + (3 - p % 4)
  | .swap64 => p - p % 8 + (7 - p % 8)

/-- Whether position `p`, after lane ordering, belongs to the span (R7, R8). Each lane map undoes
itself, so `p` is the mapped place of a span position exactly when its own mapped place lies in the
span. -/
def inSpan (lane : LaneOrder) (offset length p : Nat) : Bool :=
  decide (offset ≤ laneMap lane p) && decide (laneMap lane p < offset + length)

/-- The lane-ordered byte mask of a span (R7, R8). -/
def spanMask (lane : LaneOrder) (offset length : Nat) : Mask :=
  vecOf 64 (inSpan lane offset length)

/-- The lane-ordered 64-byte image of a write (R7); a byte outside the mask is a free value (log 9). -/
def writeImage (lane : LaneOrder) (offset : Nat) (data : List Byte) (image : Nat) : LineData :=
  vecOf 64 fun p =>
    if inSpan lane offset data.length p then data.getD (laneMap lane p - offset) 0
    else Config.unusedByte image p

/-- The completion data of a read: byte `i` is the line byte at the mapped position of the offset plus
`i` (R8, R55). -/
def spanData (lane : LaneOrder) (offset length : Nat) (line : LineData) : List Byte :=
  (List.range length).map fun i => lineByte line (laneMap lane (offset + i))

/-- Set flags of a byte mask: the length a log record gives for a write (R20, R152). -/
def maskCount (mask : Mask) : Nat :=
  mask.toArray.toList.countP id

/-! ## Parity and check word -/

/-- Whether a byte holds an odd number of ones. -/
def oddOnes (b : Byte) : Bool :=
  (List.range 8).foldl (fun acc i => acc ^^ b.getLsbD i) false

/-- The parity bit that makes the count of ones over nine bits odd (R196). -/
def parityOf (b : Byte) : Bool :=
  !oddOnes b

/-- Odd parity holds over the byte and its parity bit (R24, R196). -/
def goodParity (b : LinkByte) : Bool :=
  b.parity == parityOf b.data

/-- A byte as a port sends it (R144, R194). -/
def withParity (b : Byte) : LinkByte where
  data := b
  parity := parityOf b

/-- One bit through the check register (R196). -/
def crcBit (reg : BitVec 16) (bit : Bool) : BitVec 16 :=
  if reg.getLsbD 15 != bit then (reg <<< 1) ^^^ 0x1021 else reg <<< 1

/-- One byte through the check register, most significant bit first (R196). -/
def crcByte (reg : BitVec 16) (b : Byte) : BitVec 16 :=
  [7, 6, 5, 4, 3, 2, 1, 0].foldl (fun r i => crcBit r (b.getLsbD i)) reg

/-- The check word of a sequence of bytes, from FFFFH, with no final inversion (R196). -/
def checkWord (bytes : List Byte) : BitVec 16 :=
  bytes.foldl crcByte 0xFFFF

/-! ## Requests -/

/-- A REQUEST as the form check weighs it (R133, R194): the fields its kind uses. -/
inductive Request where
  | read (tag : Byte) (address : Addr) (length : Byte)
  | write (ack : Bool) (tag : Byte) (address : Addr) (length : Byte) (data : List LinkByte)
  | fence (tag : Byte) (scope : Scope) (purge : Bool)
  | unknown
  deriving DecidableEq, Repr

/-- A READ from the bytes after its kind byte (Table 11-1, R194). -/
def parseRead (rest : List LinkByte) : Request :=
  let bytes := rest.map LinkByte.data
  .read (byteAt bytes 1) (addrAt bytes 3) (byteAt bytes 2)

/-- A WRITE from the bytes after its kind byte: its data is what follows byte 8 of the message
(Table 11-1, R194). -/
def parseWrite (rest : List LinkByte) : Request :=
  let bytes := rest.map LinkByte.data
  .write ((byteAt bytes 0).getLsbD 0) (byteAt bytes 1) (addrAt bytes 3) (byteAt bytes 2)
    (rest.drop 8)

/-- A FENCE from the bytes after its kind byte (Table 11-1, R194). -/
def parseFence (rest : List LinkByte) : Request :=
  let bytes := rest.map LinkByte.data
  .fence (byteAt bytes 1) (if (byteAt bytes 0).getLsbD 1 then .all else .port)
    ((byteAt bytes 0).getLsbD 2)

/-- A REQUEST from its whole message (R194): the kind is the whole of byte 0. -/
def parseRequest : List LinkByte → Request
  | [] => .unknown
  | kind :: rest =>
    if kind.data = 0x01 then parseRead rest
    else if kind.data = 0x02 then parseWrite rest
    else if kind.data = 0x03 then parseFence rest
    else .unknown

/-- The first form check that fails (R135): kind, length, data count, line crossing. -/
def Request.formError : Request → Option ProtocolCause
  | .unknown => some .badKind
  | .fence _ _ _ => none
  | .read _ address length =>
    if length.toNat = 0 ∨ 64 < length.toNat then some .badLength
    else if 64 < offsetOf address + length.toNat then some .lineCrossing
    else none
  | .write _ _ address length data =>
    if length.toNat = 0 ∨ 64 < length.toNat then some .badLength
    else if data.length ≠ length.toNat then some .badLength
    else if 64 < offsetOf address + length.toNat then some .lineCrossing
    else none

/-- The request needs a write credit (R136). -/
def Request.needsWrite : Request → Bool
  | .write _ _ _ _ _ => true
  | .read _ _ _ => false
  | .fence _ _ _ => false
  | .unknown => false

/-- The request needs a request credit (R136). -/
def Request.needsRequest : Request → Bool
  | .write ack _ _ _ _ => ack
  | .read _ _ _ => true
  | .fence _ _ _ => true
  | .unknown => false

/-- The tag, when the request's kind carries one: READ, acked WRITE, FENCE (Table 7-3, R153). -/
def Request.tag? : Request → Option Byte
  | .read tag _ _ => some tag
  | .write ack tag _ _ _ => if ack then some tag else none
  | .fence tag _ _ => some tag
  | .unknown => none

/-- The length field as carried, when the request's kind carries one: READ, WRITE (R153). -/
def Request.length? : Request → Option Byte
  | .read _ _ length => some length
  | .write _ _ _ length _ => some length
  | .fence _ _ _ => none
  | .unknown => none

/-! ## Responses -/

/-- A memory response as the memory port reads it (R195): its data portion is absent when the message
marks none or ends before 64 data bytes. -/
structure Response where
  slot : SlotId
  kind : RespKind
  data : Option LineData
  deriving DecidableEq, Repr

/-- The response kind in the low two bits of byte 2 (Table 11-5). -/
def respKindOf (b : Byte) : RespKind :=
  match b.toNat % 4 with
  | 0 => .ok
  | 1 => .okPoison
  | 2 => .wait
  | _ => .fault

/-- A response from its message (R195); a missing byte of bytes 1 to 3 reads as 00H, and the type byte
is not weighed (log 28 for the message of no bytes). -/
def parseResponse (message : List Byte) : Response where
  slot := Fin.ofNat 4 (byteAt message 1).toNat
  kind := respKindOf (byteAt message 2)
  data :=
    if (byteAt message 3).getLsbD 0 && decide (68 ≤ message.length) then
      some (vecOf 64 fun p => byteAt message (4 + p))
    else none

/-- What the owner of a DEMAND or FETCH slot is given: an OK or OK_POISON without a data portion is
taken as FAULT (R111). -/
def Response.effective (r : Response) : RespKind :=
  match r.kind, r.data with
  | .ok, none => .fault
  | .okPoison, none => .fault
  | k, _ => k

/-! ## Window, catch-all and parameter bytes -/

/-- Retry limit codes (Table 11-7). -/
def retryOf (code : Byte) : Option RetryLimit :=
  match code.toNat with
  | 0 => some .zero
  | 1 => some .eight
  | 2 => some .sixtyFour
  | 3 => some .unlimited
  | _ => none

/-- Write access codes (Table 11-7). -/
def accessOf (code : Byte) : Option WriteAccess :=
  match code.toNat with
  | 0 => some .writable
  | 1 => some .readOnly
  | _ => none

/-- Read order codes (Table 11-7). -/
def orderOf (code : Byte) : Option ReadOrder :=
  match code.toNat with
  | 0 => some .relaxed
  | 1 => some .strict
  | _ => none

/-- Lane order codes (Table 11-7). -/
def laneOf (code : Byte) : Option LaneOrder :=
  match code.toNat with
  | 0 => some .asIs
  | 1 => some .swap32
  | 2 => some .swap64
  | _ => none

/-- Fault action codes (Table 11-7). -/
def faultOf (code : Byte) : Option FaultAction :=
  match code.toNat with
  | 0 => some .goOn
  | 1 => some .freeze
  | _ => none

/-- Catch-all mode codes (Section 11.3). -/
def modeOf (code : Byte) : Option CatchMode :=
  match code.toNat with
  | 0 => some .pass
  | 1 => some .reject
  | _ => none

/-- The bytes of a window: 4 KiB times 2^k (Table 1-1). -/
def WindowFields.size (f : WindowFields) : Nat :=
  4096 * 2 ^ f.sizeCode

/-- A window record is valid (R3, conditions 1 to 7; condition 8 holds by type). -/
def WindowFields.valid (f : WindowFields) : Bool :=
  decide (f.sizeCode ≤ 27) &&
  decide (f.base.toNat % f.size = 0) &&
  decide (f.targetBase.toNat % f.size = 0) &&
  decide (f.base.toNat + f.size ≤ 2 ^ 40) &&
  decide (f.targetBase.toNat + f.size ≤ 2 ^ 40) &&
  decide (f.depth ≤ 4) &&
  !(decide (f.order = .strict) && decide (0 < f.depth))

/-- The programmable fields that window bytes give, when the record is valid (R3): every enumerated
field holds a named value (condition 8) and the rest of R3 holds. -/
def windowFieldsOf (w : WindowBytes) : Option WindowFields :=
  match accessOf w.writeAccess, orderOf w.readOrder, laneOf w.laneOrder, retryOf w.retryCode,
    faultOf w.faultAction with
  | some access, some order, some lane, some retry, some fault =>
    let fields : WindowFields :=
      { base := w.base, sizeCode := w.sizeCode.toNat, targetBase := w.targetBase,
        access := access, order := order, depth := w.depth.toNat, lane := lane,
        retry := retry, fault := fault }
    if fields.valid then some fields else none
  | _, _, _, _, _ => none

/-- Each programmable parameter lies in its range (R173, Table 10-3). -/
def Params.valid (p : Params) : Bool :=
  decide (1 ≤ p.responseTimeout) && decide (p.responseTimeout ≤ 65535) &&
  decide (1 ≤ p.backoff) && decide (p.backoff ≤ 255) &&
  decide (1 ≤ p.idle) && decide (p.idle ≤ 255) &&
  decide (8 ≤ p.highWater) && decide (p.highWater ≤ 32) &&
  decide (1 ≤ p.writeA) && decide (p.writeA ≤ 31) &&
  decide (1 ≤ p.requestA) && decide (p.requestA ≤ 15)

/-- The parameters that parameter bytes give, when every value lies in its range (R173). -/
def paramsOf (b : ParamBytes) : Option Params :=
  let params : Params :=
    { responseTimeout := b.responseTimeout.toNat, backoff := b.backoff.toNat,
      idle := b.idle.toNat, highWater := b.highWater.toNat, writeA := b.writeA.toNat,
      requestA := b.requestA.toNat }
  if params.valid then some params else none

/-- The alert mask a byte gives; a mask with any of bits 3 to 7 set names no cause (Section 11.3). -/
def maskOf (b : Byte) : Option AlertMask :=
  if b.toNat < 8 then
    some { log := b.getLsbD 0, freeze := b.getLsbD 1, port := b.getLsbD 2 }
  else none

/-! ## Configuration image -/

/-- A configuration image that has passed its checks (Table 10-2). -/
structure Image where
  params : Params
  mask : AlertMask
  mode : CatchMode
  retry : RetryLimit
  windows : List Window
  deriving DecidableEq, Repr

/-- The byte at a flash address; a flash that does not drive its line is read as all ones (R185). -/
def flashByte (flash : List Byte) (i : Nat) : Byte :=
  flash.getD i 0xFF

/-- The first `n` bytes read from the flash. -/
def flashRead (flash : List Byte) (n : Nat) : List Byte :=
  (List.range n).map (flashByte flash)

/-- An image window record (bytes 0 to 17 of Table 11-7) when it is valid: R3, and an initial state of
ENABLED or DISABLED (R187). Its drop count is 0 (R188). -/
def imageWindow (bytes : List Byte) (i : Nat) : Option Window :=
  match windowFieldsOf (windowBytesAt bytes i), (byteAt bytes (i + 17)).toNat with
  | some fields, 0 => some { state := .disabled, fields := fields, dropCount := 0 }
  | some fields, 1 => some { state := .enabled, fields := fields, dropCount := 0 }
  | _, _ => none

/-- Window records `n` on, `count` of them, in order; the first invalid one is named (R187). -/
def imageWindows (bytes : List Byte) : (count n : Nat) → Except ImagePart (List Window)
  | 0, _ => .ok []
  | count + 1, n =>
    match imageWindow bytes (16 + 18 * n) with
    | none => .error (.window (Fin.ofNat 8 n))
    | some w =>
      match imageWindows bytes count (n + 1) with
      | .error part => .error part
      | .ok ws => .ok (w :: ws)

/-- The field check (R187): parameter block, catch-all record, window records in order. -/
def fieldCheck (bytes : List Byte) (count : Nat) : Except ImagePart Image :=
  match paramsOf (paramBytesAt bytes 6), maskOf (byteAt bytes 13) with
  | some params, some mask =>
    match modeOf (byteAt bytes 14), retryOf (byteAt bytes 15) with
    | some mode, some retry =>
      match imageWindows bytes count 0 with
      | .error part => .error part
      | .ok windows =>
        .ok { params := params, mask := mask, mode := mode, retry := retry, windows := windows }
    | _, _ => .error .catchAll
  | _, _ => .error .parameterBlock

/-- The load's checks in order (R186); the first that fails gives the cause. -/
def checkImage (flash : List Byte) : Except LoadCause Image :=
  let count := (flashByte flash 5).toNat
  let covered := flashRead flash (16 + 18 * count)
  if flashRead flash 4 = [0xFF, 0xFF, 0xFF, 0xFF] then .error .noFlash
  else if flashRead flash 4 ≠ [0x4F, 0x53, 0x48, 0x4C] then .error .badMarker
  else if flashByte flash 4 ≠ 0x01 then .error .badVersion
  else if 8 < count then .error .badCount
  else if checkWord covered ≠
      flashByte flash (16 + 18 * count) ++ flashByte flash (17 + 18 * count) then
    .error .badCheck
  else
    match fieldCheck covered count with
    | .error part => .error (.badField part)
    | .ok image => .ok image

/-- The image bytes the load reads (R185, R186): a load that fails one of checks 1 to 4 reads no byte
after the one that failed it, and no load reads beyond the check word (log 17). -/
def bytesRead (flash : List Byte) : Nat :=
  match checkImage flash with
  | .error .noFlash => 4
  | .error .badMarker => 4
  | .error .badVersion => 5
  | .error .badCount => 6
  | _ => 18 + 18 * (flashByte flash 5).toNat

end Sys2Proof.Machine
end

