-- ==== Sys2Proof/Machine/Flags.lean ====
section
/-! DEFINITION. The conditions the part computes from its state: credits in use, the halt, candidates' conditions, the alert
causes, the quiesce conditions, and what a WAIT does to a wait count. -/

namespace Sys2Proof.Machine

/-- Window numbers in order. -/
def allWindows : List WindowId := [0, 1, 2, 3, 4, 5, 6, 7]
/-- Stream numbers in order. -/
def allStreams : List StreamId := [0, 1, 2, 3]
/-- Slot numbers in order. -/
def allSlots : List SlotId := [0, 1, 2, 3]
/-- Pool line numbers in order. -/
def allLines : List LineId := [0, 1, 2, 3, 4, 5, 6, 7, 8, 9, 10, 11, 12, 13, 14, 15]

/-! ## Time -/

/-- A duration that begins now (R193). -/
def timerFrom (now : Time) (span : Nat) : Timer where
  start := now
  span := BitVec.ofNat 32 span

/-- The counter value at which a duration ends: the manual's deadline (R109, R121). -/
def Timer.deadline (t : Timer) : Time :=
  t.start + t.span

/-- The duration has ended: the counter, less its start, modulo 2^32, has reached it (R193). -/
def Timer.reached (t : Timer) (now : Time) : Bool :=
  decide (t.span.toNat ≤ (now - t.start).toNat)

/-- Time elapsed since `since`, modulo 2^32 (R68, R88). -/
def elapsed (now since : Time) : Nat :=
  (now - since).toNat

/-! ## Wait counts -/

/-- The WAITs a limit tolerates; none is UNLIMITED. -/
def RetryLimit.bound : RetryLimit → Option Nat
  | .zero => some 0
  | .eight => some 8
  | .sixtyFour => some 64
  | .unlimited => none

/-- The wait count after a WAIT, or none when the limit is spent (R30, R56, R84). -/
def afterWait (limit : RetryLimit) (count : Nat) : Option Nat :=
  match limit.bound with
  | none => some (min (count + 1) Config.countLimit)
  | some n => if count < n then some (count + 1) else none

/-! ## Statuses -/

/-- The status a memory failure gives to the entry it ends (R35, R56, R58, R59, R85). -/
def MemCause.status : MemCause → Status
  | .retrySpent => .retrySpent
  | .memFault => .memFault
  | .timeout => .timeout

/-- OK, or POISONED when the line is marked bad (R55, R72, R82). -/
def readStatus (poison : Bool) : Status :=
  if poison then .poisoned else .ok

/-- OK, or STORED_POISONED when the write had bad parity (R29). -/
def writeStatus (poison : Bool) : Status :=
  if poison then .storedPoisoned else .ok

/-- The status of a completing fence (R100). -/
def FenceFields.status (f : FenceFields) : Status :=
  if f.failedCount = 0 ∧ f.droppedSeen = false then .ok else .faulted

/-! ## Ports, credits and allocations -/

/-- A port of the part. -/
def State.port (s : State) : PortId → Port
  | .a => s.portA
  | .b => s.portB

/-- A port's write allocation (R139, Table 10-3). -/
def Params.writeAllocation (p : Params) : PortId → Nat
  | .a => p.writeA
  | .b => Config.writeCapacity - p.writeA

/-- A port's request allocation (R139, Table 10-3). -/
def Params.requestAllocation (p : Params) : PortId → Nat
  | .a => p.requestA
  | .b => Config.requestCapacity - p.requestA

/-- The port's write records in the queue (R41, R149). -/
def queuedRecords (queue : List WriteRecord) (p : PortId) : Nat :=
  queue.countP fun r => r.port = p

/-- The port's live tracker entries (R46, R139). -/
def liveEntries (tracker : List Entry) (p : PortId) : Nat :=
  tracker.countP fun e => e.port = p

/-- The conditions of R131 other than the port being DOWN. -/
def State.linkUpHolds (s : State) (p : PortId) : Bool :=
  decide (s.startUp.partState = .running) && !s.pins.warmReset &&
    !(s.port p).resetInput && (s.port p).linkReady

/-- A live entry of the port holds the tag (R48, R137). -/
def State.tagHeld (s : State) (p : PortId) (tag : Byte) : Bool :=
  s.tracker.any fun e => e.port = p ∧ e.tag = tag

/-- At least one owed count is above 0 (R141). -/
def Port.owesCredit (p : Port) : Bool :=
  decide (0 < p.writeOwed) || decide (0 < p.requestOwed)

/-- A CREDIT message may be sent, but for the link's turn (R141, R142). -/
def State.creditWaits (s : State) (p : PortId) : Bool :=
  decide (s.quiesce = .running) && (s.port p).owesCredit

/-! ## Slots -/

/-- The kind of a slot by its owner (R107). -/
def SlotOwner.kind : SlotOwner → SlotKind
  | .write _ => .write
  | .demand _ => .demand
  | .fetch _ => .fetch

/-- The slot holds a write in BUSY or ORPHANED (R27). -/
def Slot.holdsWrite : Slot → Bool
  | .busy (.write _) _ _ => true
  | .orphaned .write _ => true
  | _ => false

/-- The slot is FREE. -/
def Slot.isFree : Slot → Bool
  | .free => true
  | _ => false

/-- The slot is BUSY. -/
def Slot.isBusy : Slot → Bool
  | .busy _ _ _ => true
  | _ => false

/-- The slot is ORPHANED. -/
def Slot.isOrphaned : Slot → Bool
  | .orphaned _ _ => true
  | _ => false

/-- Slots for which `f` holds. -/
def MemPort.count (m : MemPort) (f : Slot → Bool) : Nat :=
  m.slots.toArray.toList.countP f

/-- The lines of ORPHANED slots of kind WRITE (R51, R80): at most one in a part that runs (R34). -/
def MemPort.orphanedWriteLines (m : MemPort) : List Addr :=
  m.slots.toArray.toList.filterMap fun
    | .orphaned .write line => some line
    | _ => none

/-- The write queue is halted (R34). -/
def MemPort.halted (m : MemPort) : Bool :=
  !m.orphanedWriteLines.isEmpty

/-- The lowest-numbered FREE slot (R109). -/
def MemPort.lowestFree (m : MemPort) : Option SlotId :=
  allSlots.find? fun i => m.slots[i].isFree

/-! ## Eligibility -/

/-- No record of the horizon with the line remains in the queue, and no ORPHANED write slot holds the
line: the relaxed part of R51, and R80 for a fetch. -/
def relaxedHolds (queue : List WriteRecord) (orphaned : List Addr) (horizon : List Nat)
    (line : Addr) : Bool :=
  !(queue.any fun r => r.place ∈ horizon ∧ r.line = line) && !orphaned.contains line

/-- No record of the horizon from the port remains in the queue: the strict part of R51. -/
def strictHolds (queue : List WriteRecord) (horizon : List Nat) (port : PortId) : Bool :=
  !(queue.any fun r => r.place ∈ horizon ∧ r.port = port)

/-- A demand read may go to memory (R51). -/
def readEligible (queue : List WriteRecord) (orphaned : List Addr) (port : PortId)
    (r : ReadFields) : Bool :=
  relaxedHolds queue orphaned r.horizon r.line &&
    (decide (r.order = .relaxed) || strictHolds queue r.horizon port)

/-- A PENDING line not in backoff may be fetched (R80). -/
def lineEligible (queue : List WriteRecord) (orphaned : List Addr) (l : Line) : Bool :=
  decide (l.state = .pending none) && relaxedHolds queue orphaned l.horizon l.target

/-! ## Alert and quiesce -/

/-- The LOG cause (R160). -/
def ErrorLog.causeHolds (l : ErrorLog) : Bool :=
  !l.records.isEmpty || decide (0 < l.overflow)

/-- The FREEZE cause (R160). -/
def WindowTable.causeHolds (t : WindowTable) : Bool :=
  t.windows.toArray.toList.any fun w => w.state = .frozen

/-- The PORT cause (R160). -/
def State.portCauseHolds (s : State) : Bool :=
  decide (s.portA.state = .faulted) || decide (s.portB.state = .faulted)

/-- One or more causes that the mask enables hold (R160). -/
def State.alertDue (s : State) : Bool :=
  (s.startUp.mask.log && s.log.causeHolds) ||
    (s.startUp.mask.freeze && s.table.causeHolds) ||
    (s.startUp.mask.port && s.portCauseHolds)

/-- The three conditions of R179. -/
def State.holdsNoWork (s : State) : Bool :=
  s.queue.isEmpty && s.tracker.isEmpty && decide (s.memPort.count Slot.isBusy = 0)

end Sys2Proof.Machine
end

