-- ==== Sys2Proof/Machine/Ops.lean ====
section
/-! DEFINITION. The shared operations: selecting records, writing ports, slots and the log, finishing an entry, and what
follows every event (the quiesce conditions and the alert line). -/

namespace Sys2Proof.Machine

/-! ## Selecting -/

/-- The element with the least key; among equal keys, the first. -/
def leastBy {α : Type} (key : α → Nat) : List α → Option α
  | [] => none
  | x :: xs =>
    match leastBy key xs with
    | none => some x
    | some y => if key y < key x then some y else some x

/-! ## Ports -/

/-- Replace a port. -/
def State.setPort (s : State) : PortId → Port → State
  | .a, x => { s with portA := x }
  | .b, x => { s with portB := x }

/-- One write credit becomes owed (R140). -/
def Port.oweWrite (p : Port) : Port :=
  { p with writeOwed := p.writeOwed + 1 }

/-- One request credit becomes owed (R140). -/
def Port.oweRequest (p : Port) : Port :=
  { p with requestOwed := p.requestOwed + 1 }

/-- One write credit becomes owed to a port, whatever its state (R140). -/
def State.oweWrite (s : State) (p : PortId) : State :=
  s.setPort p (s.port p).oweWrite

/-- A port goes ACTIVE when it is DOWN and the conditions of R131 hold; nothing else of it changes. -/
def State.linkUp (s : State) (p : PortId) : State :=
  if (s.port p).state = .down ∧ s.linkUpHolds p = true then
    s.setPort p { s.port p with state := .active }
  else s

/-! ## Slots -/

/-- Replace a slot. -/
def State.setSlot (s : State) (i : SlotId) (slot : Slot) : State :=
  { s with memPort := { s.memPort with slots := s.memPort.slots.set i slot } }

/-! ## Error log -/

/-- Append a record, or count it in the overflow count when the log is full (R155). -/
def ErrorLog.append (l : ErrorLog) (r : LogRecord) : ErrorLog :=
  if l.records.length < Config.logCapacity then { l with records := l.records ++ [r] }
  else { l with overflow := min (l.overflow + 1) Config.overflowLimit }

/-- Append what happened, with the counter value of this moment (R152). -/
def State.logEvent (s : State) (e : LogEvent) : State :=
  { s with log := s.log.append { time := s.startUp.counter, event := e } }

/-! ## Tracker entries -/

/-- The entries with one entry's state replaced. -/
def setEntryState (tracker : List Entry) (place : Nat) (state : EntryState) : List Entry :=
  tracker.map fun e => if e.place = place then { e with state := state } else e

/-- The live entry at a place of the acceptance order. -/
def State.entryAt (s : State) (place : Nat) : Option Entry :=
  s.tracker.find? fun e => e.place = place

/-- An entry becomes DONE with its status and joins its port's completion order list (R63). -/
def State.finish (s : State) (place : Nat) (status : Status) (data : List Byte) : State :=
  match s.entryAt place with
  | none => s
  | some e =>
    { s with tracker := setEntryState s.tracker place (.done status data) }.setPort e.port
      { s.port e.port with done := (s.port e.port).done ++ [place] }

/-- The completion data a line gives to an entry: its span under its own lane order (R8, R55, R82). -/
def Entry.dataFrom (e : Entry) (line : LineData) : List Byte :=
  match e.kind with
  | .read r => spanData r.lane r.offset r.length line
  | .ackedWrite => []
  | .fence _ => []

/-- A read becomes DONE with a line, OK or POISONED (R55, R61). -/
def State.finishRead (s : State) (poison : Bool) (line : LineData) (place : Nat) : State :=
  match s.entryAt place with
  | none => s
  | some e => s.finish place (readStatus poison) (e.dataFrom line)

/-- A new entry joins the tracker, the latest in the acceptance order (R47). -/
def State.addEntry (s : State) (e : Entry) : State :=
  { s with tracker := s.tracker ++ [e], nextPlace := s.nextPlace + 1 }

/-- Each READ in ORDER_WAIT or READY is weighed: READY when R51 holds, else ORDER_WAIT (R52). -/
def weighEntry (queue : List WriteRecord) (orphaned : List Addr) (e : Entry) : Entry :=
  match e.kind, e.state with
  | .read r, .orderWait =>
    if readEligible queue orphaned e.port r then { e with state := .ready } else e
  | .read r, .ready =>
    if readEligible queue orphaned e.port r then e else { e with state := .orderWait }
  | _, _ => e

/-- The tracker weighs its reads (R52). -/
def State.weighReads (s : State) : State :=
  { s with tracker := s.tracker.map (weighEntry s.queue s.memPort.orphanedWriteLines) }

/-! ## What follows every event -/

/-- The quiesce conditions are weighed at the end of the event (R179, R180). -/
def State.weighQuiesce (s : State) : State :=
  match s.quiesce with
  | .running => s
  | _ => { s with quiesce := if s.holdsNoWork then .quiesced else .quiescing }

/-- The alert line follows its causes at the event (R160). -/
def State.driveAlert (s : State) : State :=
  { s with alertLine := s.alertDue }

/-- What the part does at the end of an event. -/
def State.settle (s : State) : State :=
  s.weighQuiesce.driveAlert

/-- The part takes an event, unless the power-on reset input is asserted (R184) or the event's own
conditions do not hold (`none`): then nothing happens (log 6). -/
def State.take (s : State) (event : Option State) : Host.Outcome State Fault Refusal :=
  if s.pins.powerOnReset then .next s
  else
    match event with
    | none => .next s
    | some t => .next t.settle

end Sys2Proof.Machine
end

