-- ==== Sys2Proof/Machine/ReadAhead.lean ====
section
/-! DEFINITION. The read-ahead unit (Section 4): release, retirement, top-up, lookup, miss, invalidation, fetch outcomes, and
the meanings of FETCH_BACKOFF_END and IDLE_EXPIRY. -/

namespace Sys2Proof.Machine

/-- What the unit reads from other blocks: the counter, the window table and the places of the queue's
records (R68, R76). -/
structure FetchEnv where
  now : Time
  windows : Vector Window 8
  queued : List Nat
  deriving DecidableEq, Repr

/-- What the unit sees of the part at this moment. -/
def State.fetchEnv (s : State) : FetchEnv where
  now := s.startUp.counter
  windows := s.table.windows
  queued := s.queue.map WriteRecord.place

/-! ## Lines -/

/-- Replace a line record. -/
def ReadAhead.setLine (ra : ReadAhead) (i : LineId) (l : Option Line) : ReadAhead :=
  { ra with lines := ra.lines.set i l }

/-- Replace a stream record. -/
def ReadAhead.setStream (ra : ReadAhead) (k : StreamId) (st : Option Stream) : ReadAhead :=
  { ra with streams := ra.streams.set k st }

/-- Change every line that is not FREE; `none` makes it FREE. -/
def ReadAhead.mapLines (ra : ReadAhead) (f : Line → Option Line) : ReadAhead :=
  { ra with lines := mapVec (fun l => l.bind f) ra.lines }

/-- The line is PENDING, in backoff or not. -/
def Line.isPending (l : Line) : Bool :=
  match l.state with
  | .pending _ => true
  | .fetching => false
  | .valid _ _ => false

/-- The line is VALID. -/
def Line.isValid (l : Line) : Bool :=
  match l.state with
  | .pending _ => false
  | .fetching => false
  | .valid _ _ => true

/-- What becomes of a line released from its stream (the table of R75). -/
def Line.released (l : Line) : Option Line :=
  match l.state with
  | .valid _ _ => none
  | .pending _ => if l.attached.isEmpty then none else some { l with owner := none }
  | .fetching => some { l with owner := none }

/-- Release one line from its stream (R75). -/
def ReadAhead.release (ra : ReadAhead) (i : LineId) : ReadAhead :=
  match ra.lines[i] with
  | none => ra
  | some l => ra.setLine i l.released

/-- Release lines in order (R75). -/
def ReadAhead.releaseAll (ra : ReadAhead) (is : List LineId) : ReadAhead :=
  is.foldl ReadAhead.release ra

/-! ## Retirement -/

/-- Retire a stream: every owned line is released and the stream becomes FREE (R87). The top-up pass
that follows is made by the caller. -/
def ReadAhead.retire (ra : ReadAhead) (k : StreamId) : ReadAhead :=
  match ra.streams[k] with
  | none => ra
  | some st => (ra.releaseAll st.owned).setStream k none

/-- Retire a stream when it is ACTIVE and `f` holds of it. -/
def ReadAhead.retireIf (f : Stream → Bool) (ra : ReadAhead) (k : StreamId) : ReadAhead :=
  match ra.streams[k] with
  | none => ra
  | some st => if f st then ra.retire k else ra

/-- Retire every ACTIVE stream for which `f` holds (R87). -/
def ReadAhead.retireWhere (ra : ReadAhead) (f : Stream → Bool) : ReadAhead :=
  allStreams.foldl (ReadAhead.retireIf f) ra

/-! ## Top-up -/

/-- A line address lies inside a window's target range (R1, R76). -/
def inTarget (w : Window) (line : Nat) : Bool :=
  decide (w.fields.targetBase.toNat ≤ line) &&
    decide (line < w.fields.targetBase.toNat + w.fields.size)

/-- A stream is short (R76). -/
def Stream.short (windows : Vector Window 8) (st : Stream) : Bool :=
  decide (st.owned.length < st.depth) && inTarget windows[st.window] st.nextLine

/-- Stream `k` is ACTIVE and short. -/
def ReadAhead.isShort (ra : ReadAhead) (windows : Vector Window 8) (k : StreamId) : Bool :=
  match ra.streams[k] with
  | none => false
  | some st => st.short windows

/-- Time since a stream's last use; 0 for a FREE stream, which is never compared. -/
def ReadAhead.age (ra : ReadAhead) (now : Time) (k : StreamId) : Nat :=
  match ra.streams[k] with
  | none => 0
  | some st => elapsed now st.lastUse

/-- The short stream with the most recent last use, the lowest-numbered among equals (R77). -/
def ReadAhead.nextShort (ra : ReadAhead) (env : FetchEnv) : Option StreamId :=
  leastBy (ra.age env.now) (allStreams.filter (ra.isShort env.windows))

/-- The FREE line a top-up takes: the lowest-numbered (R76 names none; log 10). -/
def ReadAhead.freeLine (ra : ReadAhead) : Option LineId :=
  allLines.find? fun i => ra.lines[i].isNone

/-- The line a top-up creates for stream `k` (R76). -/
def newLine (env : FetchEnv) (k : StreamId) (st : Stream) (order : Nat) : Line where
  state := .pending none
  stale := false
  target := BitVec.ofNat 40 st.nextLine
  owner := some k
  retry := env.windows[st.window].fields.retry
  waitCount := 0
  horizon := env.queued
  order := order
  attached := []

/-- Create one line at a stream's next line (R76). -/
def ReadAhead.createLine (ra : ReadAhead) (env : FetchEnv) (k : StreamId) (st : Stream)
    (i : LineId) : ReadAhead :=
  { (ra.setLine i (some (newLine env k st ra.nextFetch))).setStream k
      (some { st with owned := st.owned ++ [i], nextLine := st.nextLine + 64 }) with
    nextFetch := ra.nextFetch + 1 }

/-- One creation of a top-up pass, or none when the pass is over (R77). -/
def ReadAhead.topUpOnce (ra : ReadAhead) (env : FetchEnv) : Option ReadAhead :=
  match ra.nextShort env, ra.freeLine with
  | some k, some i =>
    match ra.streams[k] with
    | none => none
    | some st => some (ra.createLine env k st i)
  | _, _ => none

/-- At most `fuel` creations of a top-up pass. -/
def ReadAhead.topUpFor (env : FetchEnv) : Nat → ReadAhead → ReadAhead
  | 0, ra => ra
  | fuel + 1, ra =>
    match ra.topUpOnce env with
    | none => ra
    | some ra' => ReadAhead.topUpFor env fuel ra'

/-- A top-up pass (R77). Each creation takes one of the 16 lines, and a stream stays the most recently
used until it is no longer short, so 16 creations are the whole pass. -/
def ReadAhead.topUp (ra : ReadAhead) (env : FetchEnv) : ReadAhead :=
  ReadAhead.topUpFor env 16 ra

/-! ## Lookup, hits and attaches -/

/-- A line that a read from port `p` in window `w` with target line `target` may be looked up on: owned by
an ACTIVE stream of that port and window (R71). -/
def ReadAhead.considers (ra : ReadAhead) (p : PortId) (w : WindowId) (target : Addr)
    (i : LineId) : Bool :=
  match ra.lines[i] with
  | none => false
  | some l =>
    match l.owner with
    | none => false
    | some k =>
      match ra.streams[k] with
      | none => false
      | some st => decide (st.port = p) && decide (st.window = w) && decide (l.target = target)

/-- Line `i` is not FREE and `f` holds of it. -/
def ReadAhead.lineIs (ra : ReadAhead) (f : Line → Bool) (i : LineId) : Bool :=
  match ra.lines[i] with
  | none => false
  | some l => f l

/-- The creation order of line `i`; 0 for a FREE line, which is never compared. -/
def ReadAhead.orderOfLine (ra : ReadAhead) (i : LineId) : Nat :=
  match ra.lines[i] with
  | none => 0
  | some l => l.order

/-- The line earliest in the creation order among those for which `f` holds (R71, R81). -/
def ReadAhead.earliest (ra : ReadAhead) (f : LineId → Bool) : Option LineId :=
  leastBy ra.orderOfLine (allLines.filter f)

/-- The answer of a lookup (R71). -/
inductive Lookup where
  | hit (i : LineId)
  | attach (i : LineId)
  | miss
  deriving DecidableEq, Repr

/-- Look a presented read up (R71). -/
def ReadAhead.lookup (ra : ReadAhead) (p : PortId) (w : WindowId) (target : Addr) : Lookup :=
  match ra.earliest fun i => ra.considers p w target i && ra.lineIs Line.isValid i with
  | some i => .hit i
  | none =>
    match ra.earliest fun i =>
        ra.considers p w target i && ra.lineIs (fun l => !l.isValid && !l.stale) i with
    | some i => .attach i
    | none => .miss

/-- What a hit or an attach on line `i` does to the stream that owns it (R74): the older lines are
released, the last use is now, and a top-up pass is made. -/
def ReadAhead.use (ra : ReadAhead) (env : FetchEnv) (i : LineId) : ReadAhead :=
  match ra.lines[i] with
  | none => ra
  | some l =>
    match l.owner with
    | none => ra
    | some k =>
      match ra.streams[k] with
      | none => ra
      | some st =>
        let older := st.owned.takeWhile fun j => j ≠ i
        let kept := st.owned.dropWhile fun j => j ≠ i
        ((ra.releaseAll older).setStream k
          (some { st with owned := kept, lastUse := env.now })).topUp env

/-- A read joins the end of a line's attached-read list (R73). -/
def ReadAhead.attach (ra : ReadAhead) (i : LineId) (entry : Nat) : ReadAhead :=
  match ra.lines[i] with
  | none => ra
  | some l => ra.setLine i (some { l with attached := l.attached ++ [entry] })

/-! ## Misses -/

/-- Stream `k` is ACTIVE, of the port and window, and about to fetch the missed line (R78). -/
def ReadAhead.continues (ra : ReadAhead) (p : PortId) (w : WindowId) (target : Addr)
    (k : StreamId) : Bool :=
  match ra.streams[k] with
  | none => false
  | some st =>
    decide (st.port = p) && decide (st.window = w) && decide (st.nextLine = target.toNat)

/-- The stream a miss re-aims, if any: the most recently used that qualifies (R78). -/
def ReadAhead.reAimed (ra : ReadAhead) (env : FetchEnv) (p : PortId) (w : WindowId)
    (target : Addr) : Option StreamId :=
  leastBy (ra.age env.now) (allStreams.filter (ra.continues p w target))

/-- Re-aim a stream past the missed line (R78). -/
def ReadAhead.reAim (ra : ReadAhead) (env : FetchEnv) (target : Addr) (k : StreamId) :
    ReadAhead :=
  match ra.streams[k] with
  | none => ra
  | some st =>
    ((ra.releaseAll st.owned).setStream k
      (some { st with owned := [], nextLine := target.toNat + 64, lastUse := env.now })).topUp env

/-- The lowest-numbered FREE stream (R79). -/
def ReadAhead.freeStream (ra : ReadAhead) : Option StreamId :=
  allStreams.find? fun k => ra.streams[k].isNone

/-- The stream with the oldest last use, the lowest-numbered among equals (R79): the least of
2^32 less the elapsed time. -/
def ReadAhead.oldest (ra : ReadAhead) (now : Time) : Option StreamId :=
  leastBy (fun k => 2 ^ 32 - ra.age now k) allStreams

/-- The stream an allocation takes: a FREE one, else the oldest (R79). -/
def ReadAhead.taken (ra : ReadAhead) (now : Time) : Option StreamId :=
  match ra.freeStream with
  | some k => some k
  | none => ra.oldest now

/-- Allocate stream `k`, retired first if it is ACTIVE (R79). -/
def ReadAhead.allocateAt (ra : ReadAhead) (env : FetchEnv) (p : PortId) (w : WindowId)
    (target : Addr) (k : StreamId) : ReadAhead :=
  ((ra.retire k).setStream k
    (some
      { port := p, window := w, depth := env.windows[w].fields.depth,
        nextLine := target.toNat + 64, owned := [], lastUse := env.now })).topUp env

/-- A miss: re-aim or allocate (R78, R79). -/
def ReadAhead.miss (ra : ReadAhead) (env : FetchEnv) (p : PortId) (w : WindowId)
    (target : Addr) : ReadAhead :=
  match ra.reAimed env p w target with
  | some k => ra.reAim env target k
  | none =>
    match ra.taken env.now with
    | some k => ra.allocateAt env p w target k
    | none => ra

/-! ## Invalidation and discards -/

/-- The stale mark on a PENDING or FETCHING line of the written line (R86). -/
def Line.staled (written : Addr) (l : Line) : Option Line :=
  some (if l.target = written ∧ l.isValid = false then { l with stale := true } else l)

/-- A stale PENDING line with no attached reads is cancelled (R86). -/
def Line.cancelStale (written : Addr) (l : Line) : Option Line :=
  if l.target = written ∧ l.isPending = true ∧ l.stale = true ∧ l.attached = [] then none
  else some l

/-- Some line of the stream has the written target line. -/
def ReadAhead.ownsTarget (ra : ReadAhead) (written : Addr) (st : Stream) : Bool :=
  st.owned.any fun i => ra.lineIs (fun l => decide (l.target = written)) i

/-- Invalidation by an accepted write (R86). -/
def ReadAhead.invalidate (ra : ReadAhead) (env : FetchEnv) (written : Addr) : ReadAhead :=
  (((ra.mapLines (Line.staled written)).retireWhere (ra.ownsTarget written)).mapLines
    (Line.cancelStale written)).topUp env

/-- Discarded entries leave the attached-read lists (R90, R91). -/
def Line.withoutReads (gone : List Nat) (l : Line) : Option Line :=
  some { l with attached := l.attached.filter fun e => !gone.contains e }

/-- A PENDING line that is ownerless or stale, with an empty list, is cancelled (R90, R91). -/
def Line.cancelUnwanted (l : Line) : Option Line :=
  if l.isPending = true ∧ (l.owner = none ∨ l.stale = true) ∧ l.attached = [] then none
  else some l

/-- What a port reset, a loss of link ready or a protocol error on port `p` does to the unit (R90);
`gone` are the discarded entries. -/
def ReadAhead.discardPort (ra : ReadAhead) (env : FetchEnv) (p : PortId) (gone : List Nat) :
    ReadAhead :=
  (((ra.mapLines (Line.withoutReads gone)).retireWhere (fun st => decide (st.port = p))).mapLines
    Line.cancelUnwanted).topUp env

/-- Departed records leave every fetch horizon (R41, R80). -/
def ReadAhead.dropRecords (ra : ReadAhead) (departed : List Nat) : ReadAhead :=
  ra.mapLines fun l =>
    some { l with horizon := l.horizon.filter fun r => !departed.contains r }

/-- A completing purge fence retires every ACTIVE stream (R92). -/
def ReadAhead.purge (ra : ReadAhead) (env : FetchEnv) : ReadAhead :=
  (ra.retireWhere fun _ => true).topUp env

/-! ## Fetches -/

/-- The fetch candidate: the eligible line earliest in the creation order (R81). -/
def ReadAhead.candidate (ra : ReadAhead) (queue : List WriteRecord) (orphaned : List Addr) :
    Option LineId :=
  ra.earliest fun i => ra.lineIs (lineEligible queue orphaned) i

/-- A line is granted a slot (R81). -/
def ReadAhead.issue (ra : ReadAhead) (i : LineId) : ReadAhead :=
  match ra.lines[i] with
  | none => ra
  | some l => ra.setLine i (some { l with state := .fetching })

/-- The reads attached to a line, in attach order. -/
def ReadAhead.attachedTo (ra : ReadAhead) (i : LineId) : List Nat :=
  match ra.lines[i] with
  | none => []
  | some l => l.attached

/-- A fetch that succeeds: an owned line that is not stale becomes VALID (R82); any other becomes FREE
and a top-up pass is made (R83). Its attached reads are completed by the caller. -/
def ReadAhead.fetched (ra : ReadAhead) (env : FetchEnv) (i : LineId) (poison : Bool)
    (data : LineData) : ReadAhead :=
  match ra.lines[i] with
  | none => ra
  | some l =>
    if l.owner.isSome = true ∧ l.stale = false then
      ra.setLine i (some { l with state := .valid poison data, horizon := [], attached := [] })
    else (ra.setLine i none).topUp env

/-- Retire the owner of a line, if it has one (R85). -/
def ReadAhead.retireOwner (ra : ReadAhead) (l : Line) : ReadAhead :=
  match l.owner with
  | none => ra
  | some k => ra.retire k

/-- A fetch that fails: the owner stream is retired, the line becomes FREE, and a top-up pass is made
(R85). Its attached reads are completed by the caller. -/
def ReadAhead.fetchFailed (ra : ReadAhead) (env : FetchEnv) (i : LineId) : ReadAhead :=
  match ra.lines[i] with
  | none => ra
  | some l => ((ra.retireOwner l).setLine i none).topUp env

/-- What a WAIT does to a fetch (R84). -/
inductive FetchWait where
  | again (l : Line)
  | spent
  | dropped
  deriving DecidableEq, Repr

/-- A WAIT on a fetching line (R84): retried while somebody may read it, else dropped. -/
def Line.afterWait (l : Line) (now : Time) (backoff : Nat) : FetchWait :=
  if l.attached ≠ [] ∨ (l.owner.isSome = true ∧ l.stale = false) then
    match Machine.afterWait l.retry l.waitCount with
    | some n =>
      .again { l with state := .pending (some (timerFrom now backoff)), waitCount := n }
    | none => .spent
  else .dropped

/-! ## Commands -/

/-- FETCH_BACKOFF_END: a line's backoff deadline is reached; it becomes absent, and the line is weighed
for candidacy again (R84). -/
def State.fetchBackoffEnd (s : State) (i : LineId) : Option State :=
  match s.readAhead.lines[i] with
  | none => none
  | some l =>
    match l.state with
    | .pending (some t) =>
      if t.reached s.startUp.counter then
        some { s with
          readAhead := s.readAhead.setLine i (some { l with state := .pending none }) }
      else none
    | .pending none => none
    | .fetching => none
    | .valid _ _ => none

/-- An ACTIVE stream's elapsed time has reached an idle time (R88). -/
def Stream.expired (now : Time) (idle : Nat) (st : Stream) : Bool :=
  decide (idle ≤ elapsed now st.lastUse)

/-- IDLE_EXPIRY: a stream whose idle time has elapsed is retired (R88). -/
def State.idleExpiry (s : State) (k : StreamId) : Option State :=
  match s.readAhead.streams[k] with
  | none => none
  | some st =>
    if st.expired s.startUp.counter s.startUp.params.idle then
      some { s with readAhead := (s.readAhead.retire k).topUp s.fetchEnv }
    else none

/-- FETCH_BACKOFF_END (R84). -/
def execFetchBackoffEnd (i : LineId) (s : State) : Host.Outcome State Fault Refusal :=
  s.take (s.fetchBackoffEnd i)

/-- IDLE_EXPIRY (R88). -/
def execIdleExpiry (k : StreamId) (s : State) : Host.Outcome State Fault Refusal :=
  s.take (s.idleExpiry k)

end Sys2Proof.Machine
end

