-- ==== Sys2Proof/Machine/WriteQueue.lean ====
section
/-! DEFINITION. The write queue and the fences (Sections 2 and 5): departures, what they report to the fences, success, failure,
freeze and withdrawal, WAITs, and the meaning of WRITE_BACKOFF_END. -/

namespace Sys2Proof.Machine

/-! ## Records -/

/-- The length of a write: its set mask flags (R20). -/
def WriteRecord.length (r : WriteRecord) : Nat :=
  maskCount r.mask

/-- How a record departs (R41). -/
inductive Departure where
  | succeeded
  | failed (cause : MemCause)
  | withdrawn
  deriving DecidableEq, Repr

/-- The status of the tracker entry of a record that departs (R62). -/
def Departure.status (d : Departure) (poison : Bool) : Status :=
  match d with
  | .succeeded => writeStatus poison
  | .failed cause => cause.status
  | .withdrawn => .frozen

/-- The departure counts as a failure (R98). -/
def Departure.isFailure : Departure → Bool
  | .succeeded => false
  | .failed _ => true
  | .withdrawn => true

/-- The departing record was issued, so its poison is seen (R98). -/
def Departure.wasIssued : Departure → Bool
  | .succeeded => true
  | .failed _ => true
  | .withdrawn => false

/-- A departure report (R41): the record and how it left. -/
abbrev Report := WriteRecord × Departure

/-! ## Fences -/

/-- One report at one PENDING fence (R98): a record outside its horizon changes nothing. -/
def FenceFields.report (f : FenceFields) (r : Report) : FenceFields :=
  if r.1.place ∈ f.horizon then
    { f with
      horizon := f.horizon.filter fun p => p ≠ r.1.place
      failedCount := f.failedCount + (if r.2.isFailure then 1 else 0)
      poisonedSeen := f.poisonedSeen || (r.1.poison && r.2.wasIssued) }
  else f

/-- The reports of one event at a fence, in order (R99). -/
def FenceFields.reportAll (f : FenceFields) (rs : List Report) : FenceFields :=
  rs.foldl FenceFields.report f

/-- An entry after the reports of one event: PENDING fences are updated, a READ's horizon loses the
departed records, and every other entry is unchanged (R41, R50, R98). -/
def Entry.reported (rs : List Report) (e : Entry) : Entry :=
  match e.kind, e.state with
  | .fence f, .pending => { e with kind := .fence (f.reportAll rs) }
  | .read r, _ =>
    { e with kind := .read { r with
        horizon := r.horizon.filter fun p => !(rs.map fun x => x.1.place).contains p } }
  | _, _ => e

/-- A PENDING fence whose horizon these reports empty, with its fields as updated (R100). -/
def Entry.completedBy (rs : List Report) (e : Entry) : Option FenceFields :=
  match e.kind, e.state with
  | .fence f, .pending =>
    if f.horizon ≠ [] ∧ (f.reportAll rs).horizon = [] then some (f.reportAll rs) else none
  | _, _ => none

/-- A fence becomes DONE: its status is set, it joins its list, and it purges if its flag is set
(R100, R102). -/
def State.finishFence (s : State) (place : Nat) (f : FenceFields) : State :=
  let t := s.finish place f.status []
  if f.purge then { t with readAhead := t.readAhead.purge t.fetchEnv } else t

/-- The fences an event completes become DONE in acceptance order (R64, R100). -/
def State.finishFences (s : State) (done : List (Nat × FenceFields)) : State :=
  done.foldl (fun t x => t.finishFence x.1 x.2) s

/-! ## Departures -/

/-- A departing acked record that has its tracker link ends its entry (R29, R35, R40). -/
def State.endEntry (s : State) (r : Report) : State :=
  match r.1.link with
  | none => s
  | some place => s.finish place (r.2.status r.1.poison) []

/-- The departures of one event (R41). `rest` is the queue without the departing records. Each owes a
write credit to its source port; the records leave every horizon; the linked acked entries become DONE
in queue order, then the fences that are emptied in acceptance order (R64); and the reads that waited
are weighed (R52). -/
def State.depart (s : State) (rest : List WriteRecord) (rs : List Report) : State :=
  let completed := s.tracker.filterMap fun e =>
    match e.completedBy rs with
    | some f => some (e.place, f)
    | none => none
  let owed := rs.foldl (fun t r => t.oweWrite r.1.port) { s with queue := rest }
  let left : State :=
    { owed with
      tracker := owed.tracker.map (Entry.reported rs)
      readAhead := owed.readAhead.dropRecords (rs.map fun r => r.1.place) }
  ((rs.foldl State.endEntry left).finishFences completed).weighReads

/-! ## Success and failure of the head record -/

/-- The head record succeeds (R29); an unlinked acked record with bad parity is logged. -/
def State.headSucceeds (s : State) (head : WriteRecord) (rest : List WriteRecord) : State :=
  let logged :=
    match head.ackTag, head.link with
    | some tag, none =>
      if head.poison then
        s.logEvent (.writeParity head.port head.window head.line head.length (some tag))
      else s
    | _, _ => s
  logged.depart rest [(head, .succeeded)]

/-- The window a failed posted record freezes: all three conditions of R16 hold (R38). -/
def WindowTable.frozenBy (t : WindowTable) (r : WriteRecord) : Option WindowId :=
  match r.window with
  | .catchAll => none
  | .window n =>
    if r.fault = .freeze ∧ t.windows[n].state = .enabled ∧ t.windows[n].fields.fault = .freeze then
      some n
    else none

/-- Replace the state of a window. -/
def WindowTable.setState (t : WindowTable) (n : WindowId) (state : WindowState) : WindowTable :=
  { t with windows := t.windows.set n { t.windows[n] with state := state } }

/-- A posted head record fails without freezing a window (R37). -/
def State.postedFails (s : State) (head : WriteRecord) (rest : List WriteRecord)
    (cause : MemCause) : State :=
  (s.logEvent (.postedWriteFailed head.port head.window head.line head.length head.waitCount
    cause none)).depart rest [(head, .failed cause)]

/-- A posted head record fails and freezes window `n` (R38): every record of the window still queued is
withdrawn at the same failure (R39, R40). -/
def State.postedFreezes (s : State) (head : WriteRecord) (rest : List WriteRecord)
    (cause : MemCause) (n : WindowId) : State :=
  let withdrawn := rest.filter fun r => r.window = .window n
  let kept := rest.filter fun r => !decide (r.window = .window n)
  let frozen : State := { s with table := s.table.setState n .frozen }
  (frozen.logEvent (.postedWriteFailed head.port head.window head.line head.length
    head.waitCount cause (some withdrawn.length))).depart kept
      ((head, .failed cause) :: withdrawn.map fun r => (r, .withdrawn))

/-- The head record fails (Table 2-3). -/
def State.headFails (s : State) (head : WriteRecord) (rest : List WriteRecord)
    (cause : MemCause) : State :=
  match head.ackTag with
  | some tag =>
    match head.link with
    | some _ => s.depart rest [(head, .failed cause)]
    | none =>
      (s.logEvent (.unreportedWriteFailed head.port head.window head.line head.length tag
        head.waitCount cause)).depart rest [(head, .failed cause)]
  | none =>
    match s.table.frozenBy head with
    | none => s.postedFails head rest cause
    | some n => s.postedFreezes head rest cause n

/-- The head record is told WAIT (R30): BACKOFF, or RETRY_SPENT at the limit. -/
def State.headWaits (s : State) (head : WriteRecord) (rest : List WriteRecord) : State :=
  match afterWait head.retry head.waitCount with
  | some n =>
    { s with queue :=
        { head with
          waitCount := n
          state := .backoff (timerFrom s.startUp.counter s.startUp.params.backoff) } :: rest }
  | none => s.headFails head rest .retrySpent

/-- A response delivered to the head record (the WRITE row of Table 6-2); OK_POISON is taken as FAULT
(R32). -/
def State.headAnswered (s : State) (head : WriteRecord) (rest : List WriteRecord)
    (kind : RespKind) : State :=
  match kind with
  | .ok => s.headSucceeds head rest
  | .okPoison => s.headFails head rest .memFault
  | .wait => s.headWaits head rest
  | .fault => s.headFails head rest .memFault

/-- The head record is a candidate for a slot (R27). -/
def State.headCandidate (s : State) : Option WriteRecord :=
  match s.queue with
  | [] => none
  | head :: _ =>
    if head.state = .queued ∧ s.memPort.count Slot.holdsWrite = 0 ∧ s.memPort.halted = false then
      some head
    else none

/-- The high-water signal is raised (R42). -/
def State.highWater (s : State) : Bool :=
  decide (s.startUp.params.highWater ≤ s.queue.length)

/-! ## Commands -/

/-- WRITE_BACKOFF_END: the head record's backoff deadline is reached, and it becomes QUEUED (R31). -/
def State.writeBackoffEnd (s : State) : Option State :=
  match s.queue with
  | [] => none
  | head :: rest =>
    match head.state with
    | .backoff t =>
      if t.reached s.startUp.counter then
        some { s with queue := { head with state := .queued } :: rest }
      else none
    | .queued => none
    | .issued => none

/-- WRITE_BACKOFF_END (R31). -/
def execWriteBackoffEnd (s : State) : Host.Outcome State Fault Refusal :=
  s.take s.writeBackoffEnd

end Sys2Proof.Machine
end

