-- ==== Sys2Proof/Machine/Layouts.lean ====
section
/-! DEFINITION. The bytes the part sends (Section 11): completions and credits, memory requests, and the maintenance
responses. -/

namespace Sys2Proof.Machine

/-- A number in one byte. -/
def byteOf (n : Nat) : Byte :=
  BitVec.ofNat 8 n

/-- A bit as a byte of value 0 or 1. -/
def flagByte (b : Bool) : Byte :=
  if b then 1 else 0

/-- Eight flags in one byte, the first in bit 0 (Section 11, opening). -/
def packFlags (flags : List Bool) : Byte :=
  byteOf (flags.zipIdx.foldl (fun acc x => if x.1 then acc + 2 ^ x.2 else acc) 0)

/-! ## Upstream messages -/

/-- Kind answered (Table 11-2). -/
def EntryKind.code : EntryKind → Byte
  | .read _ => 0x01
  | .ackedWrite => 0x02
  | .fence _ => 0x03

/-- Completion status codes (Table 11-3). -/
def Status.code : Status → Byte
  | .ok => 0x00
  | .poisoned => 0x01
  | .storedPoisoned => 0x02
  | .memFault => 0x03
  | .timeout => 0x04
  | .retrySpent => 0x05
  | .unmapped => 0x06
  | .frozen => 0x07
  | .readOnly => 0x08
  | .faulted => 0x09

/-- Byte 4 onward of a COMPLETION (Table 11-2): for a READ of status OK or POISONED its length and data, for
a FENCE its failed count and flags, else nothing. -/
def Entry.completionTail (e : Entry) (status : Status) (data : List Byte) : List Byte :=
  match e.kind with
  | .read r =>
    match status with
    | .ok => byteOf r.length :: data
    | .poisoned => byteOf r.length :: data
    | _ => []
  | .ackedWrite => []
  | .fence f => [byteOf f.failedCount, packFlags [f.droppedSeen, f.poisonedSeen]]

/-- The COMPLETION message of an entry (R144, Table 11-2); an entry that is not DONE has none. -/
def Entry.completion (e : Entry) : List LinkByte :=
  match e.state with
  | .done status data =>
    ([0x10, e.kind.code, status.code, e.tag] ++ e.completionTail status data).map withParity
  | _ => []

/-- The CREDIT message that carries a port's owed counts (R141, Table 11-2). -/
def creditMessage (writes requests : Nat) : List LinkByte :=
  [0x20, byteOf writes, byteOf requests].map withParity

/-! ## Memory requests -/

/-- The mask as bytes 8 to 15 carry it: byte 8 + j holds positions 8j to 8j + 7, position 8j in bit 0
(Table 11-4). -/
def maskBytes (mask : Mask) : List Byte :=
  (List.range 8).map fun j =>
    packFlags ((List.range 8).map fun i => mask.toArray.toList.getD (8 * j + i) false)

/-- A byte mask with all 64 flags set (R81). -/
def fullMask : Mask :=
  vecOf 64 fun _ => true

/-- The LINE_WRITE of a record on a slot (R110, Table 11-4). -/
def lineWrite (slot : SlotId) (r : WriteRecord) : List Byte :=
  [0x01, byteOf slot.val, flagByte r.poison] ++ addrBytes r.line ++ maskBytes r.mask ++
    r.data.toArray.toList

/-- A LINE_READ of a line and mask on a slot (R110, Table 11-4). -/
def lineRead (slot : SlotId) (line : Addr) (mask : Mask) : List Byte :=
  [0x02, byteOf slot.val, 0x00] ++ addrBytes line ++ maskBytes mask

/-! ## Codes of maintenance data -/

/-- Window states (Tables 11-7 and 11-9). -/
def WindowState.code : WindowState → Byte
  | .disabled => 0
  | .enabled => 1
  | .frozen => 2

/-- Write access (Table 11-7). -/
def WriteAccess.code : WriteAccess → Byte
  | .writable => 0
  | .readOnly => 1

/-- Read order (Table 11-7). -/
def ReadOrder.code : ReadOrder → Byte
  | .relaxed => 0
  | .strict => 1

/-- Lane order (Table 11-7). -/
def LaneOrder.code : LaneOrder → Byte
  | .asIs => 0
  | .swap32 => 1
  | .swap64 => 2

/-- Retry limit (Table 11-7). -/
def RetryLimit.code : RetryLimit → Byte
  | .zero => 0
  | .eight => 1
  | .sixtyFour => 2
  | .unlimited => 3

/-- Fault action (Table 11-7). -/
def FaultAction.code : FaultAction → Byte
  | .goOn => 0
  | .freeze => 1

/-- Catch-all mode (Section 11.3). -/
def CatchMode.code : CatchMode → Byte
  | .pass => 0
  | .reject => 1

/-- Part state (Table 11-9). -/
def PartState.code : PartState → Byte
  | .loading => 0
  | .running => 1

/-- Quiesce state (Table 11-9). -/
def QuiesceState.code : QuiesceState → Byte
  | .running => 0
  | .quiescing => 1
  | .quiesced => 2

/-- Port state (Table 11-9). -/
def PortState.code : PortState → Byte
  | .down => 0
  | .active => 1
  | .faulted => 2

/-- Slot kind (Tables 11-9 and 11-10). -/
def SlotKind.code : SlotKind → Byte
  | .write => 0
  | .demand => 1
  | .fetch => 2

/-- Response kind (Table 11-5). -/
def RespKind.code : RespKind → Byte
  | .ok => 0
  | .okPoison => 1
  | .wait => 2
  | .fault => 3

/-- Port (Table 11-10). -/
def PortId.code : PortId → Byte
  | .a => 0
  | .b => 1

/-- Window code (Table 11-11). -/
def WindowRef.code : WindowRef → Byte
  | .window n => byteOf n.val
  | .catchAll => 8

/-- Window code of a failing part (Table 11-11). -/
def ImagePart.code : ImagePart → Byte
  | .window n => byteOf n.val
  | .catchAll => 8
  | .parameterBlock => 9

/-- Write cause (Table 11-11). -/
def MemCause.code : MemCause → Byte
  | .retrySpent => 0x01
  | .memFault => 0x02
  | .timeout => 0x03

/-- Protocol cause (Table 11-11). -/
def ProtocolCause.code : ProtocolCause → Byte
  | .creditOverrun => 0x10
  | .duplicateTag => 0x11
  | .lineCrossing => 0x12
  | .badLength => 0x13
  | .badKind => 0x14

/-- Load cause (Table 11-11). -/
def LoadCause.code : LoadCause → Byte
  | .noFlash => 0x20
  | .badMarker => 0x21
  | .badVersion => 0x22
  | .badCount => 0x23
  | .badCheck => 0x24
  | .badField _ => 0x25

/-- Load result (Table 11-9). -/
def LoadResult.code : LoadResult → Byte
  | .inProgress => 0x00
  | .ok => 0x01
  | .failed cause => cause.code

/-- The failing part that a cause names: the window field of CONFIG_FALLBACK (R153). -/
def LoadCause.part : LoadCause → Option ImagePart
  | .badField part => some part
  | .noFlash => none
  | .badMarker => none
  | .badVersion => none
  | .badCount => none
  | .badCheck => none

/-- The failing part of a load result: 0 unless BAD_FIELD (Table 11-9). -/
def LoadResult.partCode : LoadResult → Byte
  | .failed cause =>
    match cause.part with
    | some part => part.code
    | none => 0
  | .inProgress => 0
  | .ok => 0

/-- The alert mask byte (Section 11.3). -/
def AlertMask.code (m : AlertMask) : Byte :=
  packFlags [m.log, m.freeze, m.port]

/-! ## Maintenance data -/

/-- Window record bytes 0 to 19 (Table 11-7). -/
def Window.bytes (w : Window) : List Byte :=
  addrBytes w.fields.base ++ [byteOf w.fields.sizeCode] ++ addrBytes w.fields.targetBase ++
    [w.fields.access.code, w.fields.order.code, byteOf w.fields.depth, w.fields.lane.code,
      w.fields.retry.code, w.fields.fault.code, w.state.code] ++
    halfBytes (BitVec.ofNat 16 w.dropCount)

/-- Catch-all data: mode, retry code, drop count (Table 11-6). -/
def CatchAll.bytes (c : CatchAll) : List Byte :=
  [c.mode.code, c.retry.code] ++ halfBytes (BitVec.ofNat 16 c.dropCount)

/-- Parameter bytes 0 to 9 (Table 11-8). -/
def paramData (p : Params) (mask : AlertMask) : List Byte :=
  halfBytes (BitVec.ofNat 16 p.responseTimeout) ++
    [byteOf p.backoff, byteOf p.idle, byteOf p.highWater, byteOf p.writeA, byteOf p.requestA,
      byteOf (p.writeAllocation .b), byteOf (p.requestAllocation .b), mask.code]

/-- Seven bytes of a slot: state, kind, target line (Table 11-9). -/
def Slot.bytes : Slot → List Byte
  | .free => [0, 0, 0, 0, 0, 0, 0]
  | .busy owner line _ => [1, owner.kind.code] ++ addrBytes line
  | .orphaned kind line => [2, kind.code] ++ addrBytes line

/-- Five bytes of a port (Table 11-9). -/
def Port.bytes (p : Port) : List Byte :=
  [p.state.code, byteOf p.writeHeld, byteOf p.writeOwed, byteOf p.requestHeld,
    byteOf p.requestOwed]

/-- ACTIVE streams (R70). -/
def ReadAhead.activeStreams (ra : ReadAhead) : Nat :=
  ra.streams.toArray.toList.countP Option.isSome

/-- Pool lines for which `f` holds. -/
def ReadAhead.countLines (ra : ReadAhead) (f : Option Line → Bool) : Nat :=
  ra.lines.toArray.toList.countP f

/-- Lines FREE, PENDING, FETCHING and VALID (R70, Table 11-9). -/
def ReadAhead.lineCounts (ra : ReadAhead) : List Byte :=
  [byteOf (ra.countLines Option.isNone),
    byteOf (ra.countLines fun l => l.any Line.isPending),
    byteOf (ra.countLines fun l => l.any fun x => !x.isPending && !x.isValid),
    byteOf (ra.countLines fun l => l.any Line.isValid)]

/-- The 65 bytes of GET_STATUS (R170, Table 11-9). -/
def State.statusBytes (s : State) : List Byte :=
  [s.startUp.partState.code, s.startUp.loadResult.code, s.startUp.loadResult.partCode] ++
    timeBytes s.startUp.counter ++ [s.quiesce.code] ++ s.portA.bytes ++ s.portB.bytes ++
    [byteOf (liveEntries s.tracker .a), byteOf (liveEntries s.tracker .b),
      byteOf s.queue.length, flagByte s.memPort.halted] ++
    (s.memPort.slots.toArray.toList.map Slot.bytes).flatten ++
    [byteOf s.readAhead.activeStreams] ++ s.readAhead.lineCounts ++
    [byteOf s.log.records.length, byteOf s.log.overflow] ++
    s.table.windows.toArray.toList.map fun w => w.state.code

/-! ## Log records -/

/-- The fields of a log record as read, absent ones absent (Table 11-10). -/
structure LogFields where
  port : Option PortId := none
  window : Option Byte := none
  line : Option Addr := none
  length : Option Byte := none
  tag : Option Byte := none
  waitCount : Option Nat := none
  cause : Option Byte := none
  withdrawn : Option Nat := none
  slot : Option SlotId := none
  slotKind : Option SlotKind := none
  response : Option RespKind := none
  slotCount : Option Nat := none
  recordCount : Option Nat := none
  entryCount : Option Nat := none
  deriving DecidableEq, Repr

/-- Kind codes (Table 11-11). -/
def LogEvent.code : LogEvent → Byte
  | .postedWriteFailed _ _ _ _ _ _ _ => 0x01
  | .unreportedWriteFailed _ _ _ _ _ _ _ => 0x02
  | .writeParity _ _ _ _ _ => 0x03
  | .lateResponse _ _ _ _ => 0x04
  | .strayResponse _ _ => 0x05
  | .portProtocol _ _ _ _ => 0x06
  | .warmResetLoss _ _ => 0x07
  | .configFallback _ => 0x08
  | .slotReclaimed _ => 0x09

/-- The fields each kind carries (Table 8-2). -/
def LogEvent.fields : LogEvent → LogFields
  | .postedWriteFailed port window line length waitCount cause withdrawn =>
    { port := some port, window := some window.code, line := some line,
      length := some (byteOf length), waitCount := some waitCount, cause := some cause.code,
      withdrawn := withdrawn }
  | .unreportedWriteFailed port window line length tag waitCount cause =>
    { port := some port, window := some window.code, line := some line,
      length := some (byteOf length), tag := some tag, waitCount := some waitCount,
      cause := some cause.code }
  | .writeParity port window line length tag =>
    { port := some port, window := some window.code, line := some line,
      length := some (byteOf length), tag := tag }
  | .lateResponse slot kind line response =>
    { line := some line, slot := some slot, slotKind := some kind, response := some response }
  | .strayResponse slot response => { slot := some slot, response := some response }
  | .portProtocol port cause tag length =>
    { port := some port, cause := some cause.code, tag := tag, length := length }
  | .warmResetLoss records entries =>
    { recordCount := some records, entryCount := some entries }
  | .configFallback cause =>
    { cause := some cause.code, window := cause.part.map ImagePart.code }
  | .slotReclaimed count => { slotCount := some count }

/-- A field's byte, 0 when absent. -/
def optByte {α : Type} (code : α → Byte) (x : Option α) : Byte :=
  match x with
  | some v => code v
  | none => 0

/-- The presence flags (Section 11.3). -/
def LogFields.presence (f : LogFields) : List Byte :=
  [packFlags [f.port.isSome, f.window.isSome, f.line.isSome, f.length.isSome, f.tag.isSome,
      f.waitCount.isSome, f.cause.isSome, f.withdrawn.isSome],
    packFlags [f.slot.isSome, f.slotKind.isSome, f.response.isSome, f.slotCount.isSome,
      f.recordCount.isSome, f.entryCount.isSome]]

/-- The 26 bytes of a log record as read (Table 11-10). -/
def LogRecord.bytes (r : LogRecord) : List Byte :=
  let f := r.event.fields
  [r.event.code] ++ f.presence ++ timeBytes r.time ++
    [optByte PortId.code f.port, f.window.getD 0] ++ addrBytes (f.line.getD 0) ++
    [f.length.getD 0, f.tag.getD 0] ++ halfBytes (BitVec.ofNat 16 (f.waitCount.getD 0)) ++
    [f.cause.getD 0, optByte byteOf f.withdrawn, optByte (fun i : SlotId => byteOf i.val) f.slot,
      optByte SlotKind.code f.slotKind, optByte RespKind.code f.response,
      optByte byteOf f.slotCount, optByte byteOf f.recordCount, optByte byteOf f.entryCount]

/-- The 28 data bytes of PEEK_LOG (R157, R176): records held, overflow count, the oldest record, all 00H
when the log is empty. -/
def ErrorLog.peekBytes (l : ErrorLog) : List Byte :=
  [byteOf l.records.length, byteOf l.overflow] ++
    match l.records with
    | [] => List.replicate 26 0
    | oldest :: _ => oldest.bytes

/-! ## The out line -/

/-- The eight bits of a byte, most significant first. -/
def bitsOf (b : Byte) : List Bool :=
  [7, 6, 5, 4, 3, 2, 1, 0].map fun i => b.getLsbD i

/-- The bits on the maintenance out line of a response (Section 11.3, R166): a low start marker, then the
bytes most significant bit first. In every frame state but ANSWERING the line idles high. -/
def Maintenance.outBits (m : Maintenance) : List Bool :=
  match m.frame with
  | .answering => false :: (m.response.map bitsOf).flatten
  | .idle => []
  | .receiving => []
  | .spent => []

end Sys2Proof.Machine
end

