-- ==== Sys2Proof/Machine/MemoryPort.lean ====
section
/-! DEFINITION. The memory port (Section 6) and the demand reads at it (Section 3.5): the arbiter, responses, deadlines,
and the meanings of GRANT, RESPONSE, SLOT_DEADLINE and READ_BACKOFF_END. -/

namespace Sys2Proof.Machine

/-! ## The arbiter -/

/-- The demand-read candidate: the READY entry earliest in the acceptance order (R53). -/
def State.demandCandidate (s : State) : Option (Entry × ReadFields) :=
  s.tracker.findSome? fun e =>
    match e.kind, e.state with
    | .read r, .ready => some (e, r)
    | _, _ => none

/-- The fetch candidate, when two or more slots are FREE (R125). -/
def State.fetchGrantable (s : State) : Option LineId :=
  if 2 ≤ s.memPort.count Slot.isFree then
    s.readAhead.candidate s.queue s.memPort.orphanedWriteLines
  else none

/-- A candidate that is given a slot. -/
inductive Grant where
  | write (head : WriteRecord)
  | demand (entry : Entry) (fields : ReadFields)
  | fetch (line : LineId)
  deriving DecidableEq, Repr

/-- The arbiter's choice by the steps of R123. -/
def State.chooseGrant (s : State) : Option Grant :=
  match s.headCandidate, s.demandCandidate with
  | some head, some (e, r) =>
    if s.highWater = true ∨ Config.passedOverLimit ≤ s.memPort.passedOver then
      some (.write head)
    else some (.demand e r)
  | some head, none => some (.write head)
  | none, some (e, r) => some (.demand e r)
  | none, none => s.fetchGrantable.map .fetch

/-- The passed-over count after a grant (R124). -/
def State.passedOverAfter (s : State) (g : Grant) : Nat :=
  match g with
  | .write _ => 0
  | .demand _ _ =>
    if s.headCandidate.isSome then s.memPort.passedOver + 1 else s.memPort.passedOver
  | .fetch _ => s.memPort.passedOver

/-- The slot a grant fills, its deadline set from the response timeout as it stands (R109). -/
def State.grantedSlot (s : State) (owner : SlotOwner) (line : Addr) : Slot :=
  .busy owner line (timerFrom s.startUp.counter s.startUp.params.responseTimeout)

/-- The target line of a pool line; 0 for a FREE one, which is never granted. -/
def ReadAhead.targetOf (ra : ReadAhead) (i : LineId) : Addr :=
  match ra.lines[i] with
  | none => 0
  | some l => l.target

/-- The owner, the target line and the request message of a grant on a slot (R107, R109, R110). -/
def State.grantParts (s : State) (slot : SlotId) : Grant → SlotOwner × Addr × List Byte
  | .write head => (.write head.place, head.line, lineWrite slot head)
  | .demand e r => (.demand (some e.place), r.line, lineRead slot r.line r.mask)
  | .fetch i =>
    (.fetch i, s.readAhead.targetOf i, lineRead slot (s.readAhead.targetOf i) fullMask)

/-- The owner's block moves the owner to its issued state (R28, R54, R81). -/
def State.issueOwner (s : State) : Grant → State
  | .write _ =>
    match s.queue with
    | [] => s
    | head :: rest => { s with queue := { head with state := .issued } :: rest }
  | .demand e _ => { s with tracker := setEntryState s.tracker e.place .issued }
  | .fetch i => { s with readAhead := s.readAhead.issue i }

/-- Give a slot to a candidate (R109): the slot becomes BUSY, the request is sent, the owner is issued. -/
def State.grantTo (s : State) (slot : SlotId) (g : Grant) : State :=
  let parts := s.grantParts slot g
  let filled := s.setSlot slot (s.grantedSlot parts.1 parts.2.1)
  { filled with
    memPort :=
      { filled.memPort with
        passedOver := s.passedOverAfter g
        lastRequest := parts.2.2 } }.issueOwner g

/-- GRANT: one grant, when a slot is FREE and a candidate may be granted (R123). -/
def State.grant (s : State) : Option State :=
  match s.memPort.lowestFree, s.chooseGrant with
  | some slot, some g => some (s.grantTo slot g)
  | _, _ => none

/-! ## Outcomes of demand reads and fetches -/

/-- A demand read is told WAIT (R56): BACKOFF, or DONE with RETRY_SPENT at the limit. -/
def State.readWaits (s : State) (e : Entry) (r : ReadFields) : State :=
  match afterWait r.retry r.waitCount with
  | some n =>
    { s with tracker := s.tracker.map fun x =>
        if x.place = e.place then
          { x with
            kind := .read { r with waitCount := n }
            state := .backoff (timerFrom s.startUp.counter s.startUp.params.backoff) }
        else x }
  | none => s.finish e.place .retrySpent []

/-- A response delivered to a demand read (the DEMAND row of Table 6-2). -/
def State.readAnswered (s : State) (place : Nat) (r : Response) : State :=
  match s.entryAt place with
  | none => s
  | some e =>
    match e.kind with
    | .ackedWrite => s
    | .fence _ => s
    | .read fields =>
      match r.effective, r.data with
      | .ok, some line => s.finishRead false line place
      | .okPoison, some line => s.finishRead true line place
      | .wait, _ => s.readWaits e fields
      | _, _ => s.finish place .memFault []

/-- The reads attached to a line become DONE in attach order with the fetched line (R82, R83). -/
def State.serveAttached (s : State) (i : LineId) (poison : Bool) (line : LineData) : State :=
  (s.readAhead.attachedTo i).foldl (State.finishRead · poison line ·) s

/-- The reads attached to a line become DONE in attach order with the cause of its failure (R85). -/
def State.failAttached (s : State) (i : LineId) (cause : MemCause) : State :=
  (s.readAhead.attachedTo i).foldl (State.finish · · cause.status []) s

/-- A fetch succeeds (R82, R83). -/
def State.fetchSucceeds (s : State) (i : LineId) (poison : Bool) (line : LineData) : State :=
  let served := s.serveAttached i poison line
  { served with readAhead := served.readAhead.fetched served.fetchEnv i poison line }

/-- A fetch fails (R85). -/
def State.fetchFails (s : State) (i : LineId) (cause : MemCause) : State :=
  let told := s.failAttached i cause
  { told with readAhead := told.readAhead.fetchFailed told.fetchEnv i }

/-- A fetch is told WAIT (R84). -/
def State.fetchWaits (s : State) (i : LineId) : State :=
  match s.readAhead.lines[i] with
  | none => s
  | some l =>
    match l.afterWait s.startUp.counter s.startUp.params.backoff with
    | .again l' => { s with readAhead := s.readAhead.setLine i (some l') }
    | .spent => s.fetchFails i .retrySpent
    | .dropped => { s with readAhead := (s.readAhead.setLine i none).topUp s.fetchEnv }

/-- A response delivered to a fetch (the FETCH row of Table 6-2). -/
def State.fetchAnswered (s : State) (i : LineId) (r : Response) : State :=
  match r.effective, r.data with
  | .ok, some line => s.fetchSucceeds i false line
  | .okPoison, some line => s.fetchSucceeds i true line
  | .wait, _ => s.fetchWaits i
  | _, _ => s.fetchFails i .memFault

/-- A response delivered to the write record that owns the slot: the head of the queue (R107). -/
def State.writeAnswered (s : State) (place : Nat) (kind : RespKind) : State :=
  match s.queue with
  | [] => s
  | head :: rest => if head.place = place then s.headAnswered head rest kind else s

/-! ## Responses -/

/-- The slot becomes FREE and its owner takes the response (R112, R113). -/
def State.deliver (s : State) (owner : SlotOwner) (r : Response) : State :=
  match owner with
  | .write place => s.writeAnswered place r.kind
  | .demand none => s
  | .demand (some place) => s.readAnswered place r
  | .fetch i => s.fetchAnswered i r

/-- RESPONSE: by the state of the slot it names (R112 to R116). LATE_RESPONSE gives the kind that arrived,
also for an OK or OK_POISON without a data portion on a slot of kind DEMAND or FETCH, which R111 takes as
FAULT for the owner: the model's choice (log 29). -/
def State.respond (s : State) (r : Response) : State :=
  match s.memPort.slots[r.slot] with
  | .free => s.logEvent (.strayResponse r.slot r.kind)
  | .orphaned kind line =>
    ((s.logEvent (.lateResponse r.slot kind line r.kind)).setSlot r.slot .free).weighReads
  | .busy owner _ _ => (s.setSlot r.slot .free).deliver owner r

/-! ## Deadlines -/

/-- The head record's slot has reached its deadline: it fails with TIMEOUT (R33). -/
def State.writeTimesOut (s : State) (place : Nat) : State :=
  match s.queue with
  | [] => s
  | head :: rest => if head.place = place then s.headFails head rest .timeout else s

/-- The owner of a slot that becomes ORPHANED is told TIMEOUT (R117). -/
def State.tellTimeout (s : State) : SlotOwner → State
  | .write place => s.writeTimesOut place
  | .demand none => s
  | .demand (some place) => s.finish place .timeout []
  | .fetch i => s.fetchFails i .timeout

/-- SLOT_DEADLINE: a BUSY slot whose response timeout has elapsed becomes ORPHANED (R117), its owner
fails with TIMEOUT, and the reads of an orphaned write's line are weighed (R120). -/
def State.slotDeadline (s : State) (i : SlotId) : Option State :=
  match s.memPort.slots[i] with
  | .free => none
  | .orphaned _ _ => none
  | .busy owner line deadline =>
    if deadline.reached s.startUp.counter then
      some (((s.setSlot i (.orphaned owner.kind line)).tellTimeout owner).weighReads)
    else none

/-! ## Read backoff -/

/-- The live entry of a port with a tag (R48). -/
def State.entryTagged (s : State) (p : PortId) (tag : Byte) : Option Entry :=
  s.tracker.find? fun e => e.port = p ∧ e.tag = tag

/-- READ_BACKOFF_END: a BACKOFF entry's deadline is reached; it becomes READY, or ORDER_WAIT while an
ORPHANED write slot holds its line (R57). -/
def State.readBackoffEnd (s : State) (p : PortId) (tag : Byte) : Option State :=
  match s.entryTagged p tag with
  | none => none
  | some e =>
    match e.state with
    | .backoff t =>
      if t.reached s.startUp.counter then
        some ({ s with tracker := setEntryState s.tracker e.place .orderWait }.weighReads)
      else none
    | _ => none

/-! ## Commands -/

/-- GRANT (R123). -/
def execGrant (s : State) : Host.Outcome State Fault Refusal :=
  s.take s.grant

/-- RESPONSE (R112, R195). -/
def execResponse (message : List Byte) (s : State) : Host.Outcome State Fault Refusal :=
  s.take (some (s.respond (parseResponse message)))

/-- SLOT_DEADLINE (R117). -/
def execSlotDeadline (i : SlotId) (s : State) : Host.Outcome State Fault Refusal :=
  s.take (s.slotDeadline i)

/-- READ_BACKOFF_END (R57). -/
def execReadBackoffEnd (p : PortId) (tag : Byte) (s : State) :
    Host.Outcome State Fault Refusal :=
  s.take (s.readBackoffEnd p tag)

end Sys2Proof.Machine
end

