-- ==== Sys2Proof/Machine/Requests.lean ====
section
/-! DEFINITION. Requests at the upstream ports (Sections 1.3 to 1.6, 2.2, 3.2, 5.2, 7.2, 7.5): the five steps of R134, the
hand-offs, protocol errors, and the meanings of the four REQUEST rows. -/

namespace Sys2Proof.Machine

/-! ## Discarding a port's work -/

/-- The places of a port's tracker entries. -/
def State.placesOf (s : State) (p : PortId) : List Nat :=
  (s.tracker.filter fun e => e.port = p).map Entry.place

/-- An acked record of the port loses its tracker link (R44). -/
def WriteRecord.unlinked (p : PortId) (r : WriteRecord) : WriteRecord :=
  if r.port = p then { r with link := none } else r

/-- A DEMAND slot whose entry is discarded loses its owner (R129). -/
def Slot.withoutEntries (gone : List Nat) : Slot → Slot
  | .busy (.demand (some place)) line deadline =>
    .busy (.demand (if gone.contains place then none else some place)) line deadline
  | slot => slot

/-- A port with its work discarded and its credits set (R148, R149): `queued` of its records are still
in the queue. The port state, the inputs and the allocations are not changed here. -/
def Port.discarded (port : Port) (writes requests queued : Nat) : Port :=
  { port with
    writeHeld := 0
    writeOwed := writes - queued
    requestHeld := 0
    requestOwed := requests
    dropFlag := false
    done := []
    link := .idle
    lastSent := .completion }

/-- What a port reset, a loss of link ready and a protocol error discard (R148): the port's entries,
links, attached reads, streams, slot owners, drop flag, outbound message and credits. -/
def State.discardPort (s : State) (p : PortId) : State :=
  let gone := s.placesOf p
  let params := s.startUp.params
  { s with
    tracker := s.tracker.filter fun e => !decide (e.port = p)
    queue := s.queue.map (WriteRecord.unlinked p)
    readAhead := s.readAhead.discardPort s.fetchEnv p gone
    memPort := { s.memPort with slots := mapVec (Slot.withoutEntries gone) s.memPort.slots }
    }.setPort p
      ((s.port p).discarded (params.writeAllocation p) (params.requestAllocation p)
        (queuedRecords s.queue p))

/-- A protocol error (R147): logged, the port FAULTED, its work discarded. -/
def State.protocolError (s : State) (p : PortId) (cause : ProtocolCause) (r : Request) : State :=
  let logged := s.logEvent (.portProtocol p cause r.tag? r.length?)
  (logged.setPort p { logged.port p with state := .faulted }).discardPort p

/-! ## Matching and translation -/

/-- The upstream range of a window holds an address (R1). -/
def WindowFields.covers (f : WindowFields) (a : Addr) : Bool :=
  decide (f.base.toNat ≤ a.toNat) && decide (a.toNat < f.base.toNat + f.size)

/-- The lowest-numbered ENABLED or FROZEN window that holds the address, else the catch-all (R4). -/
def WindowTable.matching (t : WindowTable) (a : Addr) : WindowRef :=
  match allWindows.find? fun n =>
      !decide (t.windows[n].state = .disabled) && t.windows[n].fields.covers a with
  | some n => .window n
  | none => .catchAll

/-- The attributes of the matched record: the window's, or the catch-all's fixed ones with its retry
limit and identity translation (R2). -/
def WindowTable.policy (t : WindowTable) : WindowRef → WindowFields
  | .window n => t.windows[n].fields
  | .catchAll =>
    { base := 0, sizeCode := 0, targetBase := 0, access := .writable, order := .relaxed,
      depth := 0, lane := .asIs, retry := t.catchAll.retry, fault := .goOn }

/-- The target address (R6): target base plus address less base. -/
def WindowFields.translate (f : WindowFields) (a : Addr) : Addr :=
  f.targetBase + (a - f.base)

/-- The status with which the matched record turns a write away, if it does (R9, R10, Table 1-3). -/
def WindowTable.writeRefusal (t : WindowTable) : WindowRef → Option Status
  | .catchAll =>
    match t.catchAll.mode with
    | .reject => some .unmapped
    | .pass => none
  | .window n =>
    match t.windows[n].state, t.windows[n].fields.access with
    | .frozen, _ => some .frozen
    | _, .readOnly => some .readOnly
    | _, .writable => none

/-- Add 1 to a drop count, which stops at 65535 (R11). -/
def countDrop (n : Nat) : Nat :=
  min (n + 1) Config.countLimit

/-- Count a drop against the matched record (R11). -/
def WindowTable.drop (t : WindowTable) : WindowRef → WindowTable
  | .catchAll =>
    { t with catchAll := { t.catchAll with dropCount := countDrop t.catchAll.dropCount } }
  | .window n =>
    let w := t.windows[n]
    { t with windows := t.windows.set n { w with dropCount := countDrop w.dropCount } }

/-! ## Hand-off of a READ -/

/-- The READ fields copied at the window match (R17, R49). -/
def WindowTable.readFields (t : WindowTable) (ref : WindowRef) (address : Addr) (length : Nat)
    (horizon : List Nat) : ReadFields :=
  let f := t.policy ref
  { window := ref, line := lineOf (f.translate address),
    mask := spanMask f.lane (offsetOf address) length, offset := offsetOf address,
    length := length, order := f.order, lane := f.lane, retry := f.retry, horizon := horizon,
    waitCount := 0 }

/-- A new READ entry in a state. -/
def State.addRead (s : State) (p : PortId) (tag : Byte) (fields : ReadFields)
    (state : EntryState) : State :=
  s.addEntry { place := s.nextPlace, port := p, tag := tag, kind := .read fields, state := state }

/-- A READ that falls to the catch-all in REJECT mode is DONE with UNMAPPED (R9, R49). -/
def State.readUnmapped (s : State) (p : PortId) (tag : Byte) (fields : ReadFields) : State :=
  (s.addRead p tag { fields with horizon := [] } .orderWait).finish s.nextPlace .unmapped []

/-- A demand read: it takes its horizon and is weighed at once (R49 to R52). -/
def State.readDemand (s : State) (p : PortId) (tag : Byte) (fields : ReadFields) : State :=
  (s.addRead p tag { fields with horizon := s.queue.map WriteRecord.place } .orderWait).weighReads

/-- A hit on line `i` (R61, R72, R74). -/
def State.readHit (s : State) (p : PortId) (tag : Byte) (fields : ReadFields) (i : LineId) :
    State :=
  let added := s.addRead p tag { fields with horizon := [] } .orderWait
  let served :=
    match s.readAhead.lines[i] with
    | some { state := .valid poison data, .. } => added.finishRead poison data s.nextPlace
    | _ => added
  { served with readAhead := s.readAhead.use s.fetchEnv i }

/-- An attach to line `i` (R61, R73, R74). -/
def State.readAttach (s : State) (p : PortId) (tag : Byte) (fields : ReadFields) (i : LineId) :
    State :=
  { s.addRead p tag { fields with horizon := [] } .attached with
    readAhead := (s.readAhead.attach i s.nextPlace).use s.fetchEnv i }

/-- A miss: a demand read, and the unit looks forward (R61, R78, R79). -/
def State.readMiss (s : State) (p : PortId) (tag : Byte) (fields : ReadFields) (w : WindowId) :
    State :=
  { s.readDemand p tag fields with
    readAhead := s.readAhead.miss s.fetchEnv p w fields.line }

/-- A READ presented to the read-ahead unit in window `w` (R71). -/
def State.readPresented (s : State) (p : PortId) (tag : Byte) (fields : ReadFields)
    (w : WindowId) : State :=
  match s.readAhead.lookup p w fields.line with
  | .hit i => s.readHit p tag fields i
  | .attach i => s.readAttach p tag fields i
  | .miss => s.readMiss p tag fields w

/-- Hand-off of a READ by its window match (R49, R138). -/
def State.handOffRead (s : State) (p : PortId) (tag : Byte) (address : Addr) (length : Byte) :
    State :=
  let ref := s.table.matching address
  let fields := s.table.readFields ref address length.toNat []
  match ref with
  | .catchAll =>
    match s.table.catchAll.mode with
    | .reject => s.readUnmapped p tag fields
    | .pass => s.readDemand p tag fields
  | .window w =>
    if 0 < s.table.windows[w].fields.depth then s.readPresented p tag fields w
    else s.readDemand p tag fields

/-! ## Hand-off of a WRITE -/

/-- An ACKED_WRITE entry (R25, R62). -/
def State.addAckedWrite (s : State) (p : PortId) (tag : Byte) : State :=
  s.addEntry { place := s.nextPlace, port := p, tag := tag, kind := .ackedWrite, state := .queued }

/-- A posted write is dropped (R11): the drop count, the drop flag, the write credit. -/
def State.dropWrite (s : State) (p : PortId) (ref : WindowRef) : State :=
  { s with table := s.table.drop ref }.setPort p { (s.port p).oweWrite with dropFlag := true }

/-- An acked write is refused (R9, R10): an entry DONE with the status; the write credit is owed back
at once. -/
def State.refuseWrite (s : State) (p : PortId) (tag : Byte) (status : Status) : State :=
  ((s.oweWrite p).addAckedWrite p tag).finish s.nextPlace status []

/-- The record of an accepted write (R23): its fields copied under R17, its data and mask lane-ordered
(R7), its poison found by parity (R24). An acked write's link names the entry made with it (R25). -/
def State.newRecord (s : State) (p : PortId) (ref : WindowRef) (ack : Bool) (tag : Byte)
    (address : Addr) (data : List LinkByte) : WriteRecord :=
  let f := s.table.policy ref
  { place := s.nextPlace, port := p, window := ref, line := lineOf (f.translate address),
    mask := spanMask f.lane (offsetOf address) data.length,
    data := writeImage f.lane (offsetOf address) (data.map LinkByte.data) s.images,
    poison := data.any fun b => !goodParity b,
    ackTag := if ack then some tag else none,
    link := if ack then some s.nextPlace else none,
    retry := f.retry, fault := f.fault, waitCount := 0, state := .queued }

/-- A posted write with bad parity is logged at its acceptance (R24). -/
def State.logParity (s : State) (r : WriteRecord) : State :=
  if r.poison = true ∧ r.ackTag = none then
    s.logEvent (.writeParity r.port r.window r.line r.length none)
  else s

/-- A record joins the queue at its tail (R23) and invalidates the pool lines of its target line (R26,
R86). It is in the queue when the top-up pass of the invalidation is made. -/
def State.enqueue (s : State) (r : WriteRecord) : State :=
  let queued : State := { s with queue := s.queue ++ [r], images := s.images + 1 }
  { queued with readAhead := queued.readAhead.invalidate queued.fetchEnv r.line }

/-- A posted write takes its place in the acceptance order; an acked write's entry takes it (R25, R47). -/
def State.takePlace (s : State) (p : PortId) (ack : Bool) (tag : Byte) : State :=
  if ack then s.addAckedWrite p tag else { s with nextPlace := s.nextPlace + 1 }

/-- Acceptance of a write into the queue (R23 to R26). -/
def State.acceptWrite (s : State) (p : PortId) (ref : WindowRef) (ack : Bool) (tag : Byte)
    (address : Addr) (data : List LinkByte) : State :=
  let r := s.newRecord p ref ack tag address data
  (((s.takePlace p ack tag).logParity r).enqueue r)

/-- Hand-off of a WRITE by its window match (R10, R138). -/
def State.handOffWrite (s : State) (p : PortId) (ack : Bool) (tag : Byte) (address : Addr)
    (data : List LinkByte) : State :=
  let ref := s.table.matching address
  match s.table.writeRefusal ref with
  | none => s.acceptWrite p ref ack tag address data
  | some status => if ack then s.refuseWrite p tag status else s.dropWrite p ref

/-! ## Hand-off of a FENCE -/

/-- The fence horizon: the queue's records of the fence's scope (R95). -/
def State.fenceHorizon (s : State) (p : PortId) (scope : Scope) : List Nat :=
  (s.queue.filter fun r => decide (scope = .all) || decide (r.port = p)).map WriteRecord.place

/-- Hand-off of a FENCE (R95): it takes the port's drop flag, which is cleared (R97), and completes at
once when its horizon is empty (R101). -/
def State.handOffFence (s : State) (p : PortId) (tag : Byte) (scope : Scope) (purge : Bool) :
    State :=
  let fields : FenceFields :=
    { scope := scope, purge := purge, horizon := s.fenceHorizon p scope, failedCount := 0,
      droppedSeen := (s.port p).dropFlag, poisonedSeen := false }
  let added :=
    (s.setPort p { s.port p with dropFlag := false }).addEntry
      { place := s.nextPlace, port := p, tag := tag, kind := .fence fields, state := .pending }
  if fields.horizon = [] then added.finishFence s.nextPlace fields else added

/-! ## The five steps -/

/-- A needed credit is missing (R136). -/
def Request.overruns (r : Request) (port : Port) : Bool :=
  (r.needsWrite && decide (port.writeHeld = 0)) ||
    (r.needsRequest && decide (port.requestHeld = 0))

/-- The needed credits are spent (R136). -/
def Request.spend (r : Request) (port : Port) : Port :=
  { port with
    writeHeld := port.writeHeld - (if r.needsWrite then 1 else 0)
    requestHeld := port.requestHeld - (if r.needsRequest then 1 else 0) }

/-- The tag check fails (R137). -/
def State.duplicateTag (s : State) (p : PortId) (r : Request) : Bool :=
  match r.tag? with
  | none => false
  | some tag => s.tagHeld p tag

/-- Steps 4 and 5: match and hand-off (R138). A request of no known kind never reaches them. -/
def State.handOff (s : State) (p : PortId) : Request → State
  | .read tag address length => s.handOffRead p tag address length
  | .write ack tag address _ data => s.handOffWrite p ack tag address data
  | .fence tag scope purge => s.handOffFence p tag scope purge
  | .unknown => s

/-- Steps 2 to 5 for a request of good form (R134). -/
def State.handOver (s : State) (p : PortId) (r : Request) : State :=
  if r.overruns (s.port p) then s.protocolError p .creditOverrun r
  else
    let spent := s.setPort p (r.spend (s.port p))
    if spent.duplicateTag p r then spent.protocolError p .duplicateTag r else spent.handOff p r

/-- A request arrives (R132, R134): ignored unless the port is ACTIVE. -/
def State.requestArrives (s : State) (p : PortId) (r : Request) : Option State :=
  if (s.port p).state = .active then
    match r.formError with
    | some cause => some (s.protocolError p cause r)
    | none => some (s.handOver p r)
  else none

/-! ## Commands -/

/-- REQUEST_READ (R49, R134). -/
def execRequestRead (p : PortId) (rest : List LinkByte) (s : State) :
    Host.Outcome State Fault Refusal :=
  s.take (s.requestArrives p (parseRead rest))

/-- REQUEST_WRITE (R23, R134). -/
def execRequestWrite (p : PortId) (rest : List LinkByte) (s : State) :
    Host.Outcome State Fault Refusal :=
  s.take (s.requestArrives p (parseWrite rest))

/-- REQUEST_FENCE (R95, R134). -/
def execRequestFence (p : PortId) (rest : List LinkByte) (s : State) :
    Host.Outcome State Fault Refusal :=
  s.take (s.requestArrives p (parseFence rest))

/-- REQUEST_OF_NO_KNOWN_KIND (R135, R194). A message that names a known kind after all is the request it
is (log 25). -/
def execRequestOfNoKnownKind (p : PortId) (message : List LinkByte) (s : State) :
    Host.Outcome State Fault Refusal :=
  s.take (s.requestArrives p (parseRequest message))

end Sys2Proof.Machine
end

