-- ==== Sys2Proof/Machine/Ports.lean ====
section
/-! DEFINITION. The upstream ports (Section 7): their inputs, port reset and link-up, and the sending of completions and
credits. -/

namespace Sys2Proof.Machine

/-! ## Inputs -/

/-- The level of a port's reset input. It is followed even while the power-on reset is asserted (log 5). -/
def State.setResetInput (s : State) (p : PortId) (level : Bool) : State :=
  s.setPort p { s.port p with resetInput := level }

/-- The level of a port's link ready input, followed in the same way (log 5). -/
def State.setLinkReady (s : State) (p : PortId) (level : Bool) : State :=
  s.setPort p { s.port p with linkReady := level }

/-- A port reset or a loss of link ready at a port: an ACTIVE or FAULTED port goes DOWN with the effects
of R148; a DOWN port is not changed (Table 7-2). -/
def State.portDown (s : State) (p : PortId) : State :=
  match (s.port p).state with
  | .down => s
  | .active => (s.setPort p { s.port p with state := .down }).discardPort p
  | .faulted => (s.setPort p { s.port p with state := .down }).discardPort p

/-! ## Sending -/

/-- The link is IDLE and goes to a completion: one waits, and either no CREDIT message may be sent or the
last message begun was a CREDIT (R146). -/
def State.completionTurn (s : State) (p : PortId) : Bool :=
  decide ((s.port p).state = .active) && decide ((s.port p).link = .idle) &&
    !(s.port p).done.isEmpty &&
    (!s.creditWaits p || decide ((s.port p).lastSent = .credit))

/-- The link is IDLE and goes to a CREDIT message (R141, R146). -/
def State.creditTurn (s : State) (p : PortId) : Bool :=
  decide ((s.port p).state = .active) && decide ((s.port p).link = .idle) &&
    s.creditWaits p &&
    ((s.port p).done.isEmpty || decide ((s.port p).lastSent = .completion))

/-- The message of the entry at a place; none when no such entry lives. -/
def State.completionAt (s : State) (place : Nat) : List LinkByte :=
  match s.entryAt place with
  | none => []
  | some e => e.completion

/-- COMPLETION_BEGIN: the port begins to send the completion of the oldest entry on its list (R145). -/
def State.completionBegin (s : State) (p : PortId) : Option State :=
  if s.completionTurn p then
    match (s.port p).done with
    | [] => none
    | oldest :: _ =>
      some (s.setPort p { s.port p with
        link := .sendingCompletion (s.completionAt oldest)
        lastSent := .completion })
  else none

/-- The port's entry at a place is freed: it leaves the tracker and one request credit is owed (R65). -/
def State.freeEntry (s : State) (p : PortId) (place : Nat) : State :=
  if s.tracker.any fun e => e.place = place ∧ e.port = p then
    { s with tracker := s.tracker.eraseP fun e => decide (e.place = place ∧ e.port = p) }.setPort p
      (s.port p).oweRequest
  else s

/-- COMPLETION_SENT: the oldest entry leaves the list and is freed, and the link is IDLE (R65, R145). -/
def State.completionSent (s : State) (p : PortId) : Option State :=
  match (s.port p).link, (s.port p).done with
  | .sendingCompletion _, oldest :: rest =>
    some ((s.setPort p { s.port p with link := .idle, done := rest }).freeEntry p oldest)
  | _, _ => none

/-- A CREDIT message takes all owed credits: they move from owed to held (R141). -/
def Port.creditBegun (port : Port) : Port :=
  { port with
    writeHeld := port.writeHeld + port.writeOwed
    writeOwed := 0
    requestHeld := port.requestHeld + port.requestOwed
    requestOwed := 0
    link := .sendingCredit (creditMessage port.writeOwed port.requestOwed)
    lastSent := .credit }

/-- CREDIT_BEGIN (R141, R142, R146). -/
def State.creditBegin (s : State) (p : PortId) : Option State :=
  if s.creditTurn p then some (s.setPort p (s.port p).creditBegun) else none

/-- CREDIT_SENT: the link is IDLE (R141). -/
def State.creditSent (s : State) (p : PortId) : Option State :=
  match (s.port p).link with
  | .sendingCredit _ => some (s.setPort p { s.port p with link := .idle })
  | .idle => none
  | .sendingCompletion _ => none

/-! ## Commands -/

/-- PORT_RESET_ASSERT (R148). An input already asserted has no such event. -/
def execPortResetAssert (p : PortId) (s : State) : Host.Outcome State Fault Refusal :=
  if (s.port p).resetInput then .next s
  else (s.setResetInput p true).take (some ((s.setResetInput p true).portDown p))

/-- LINK_READY_LOSS (R148). An input already absent has no such event. -/
def execLinkReadyLoss (p : PortId) (s : State) : Host.Outcome State Fault Refusal :=
  if (s.port p).linkReady then
    (s.setLinkReady p false).take (some ((s.setLinkReady p false).portDown p))
  else .next s

/-- PORT_RESET_RELEASE (R131). -/
def execPortResetRelease (p : PortId) (s : State) : Host.Outcome State Fault Refusal :=
  if (s.port p).resetInput then
    (s.setResetInput p false).take (some ((s.setResetInput p false).linkUp p))
  else .next s

/-- LINK_READY_ARRIVAL (R131). -/
def execLinkReadyArrival (p : PortId) (s : State) : Host.Outcome State Fault Refusal :=
  if (s.port p).linkReady then .next s
  else (s.setLinkReady p true).take (some ((s.setLinkReady p true).linkUp p))

/-- COMPLETION_BEGIN (R145, R146). -/
def execCompletionBegin (p : PortId) (s : State) : Host.Outcome State Fault Refusal :=
  s.take (s.completionBegin p)

/-- COMPLETION_SENT (R65, R145). -/
def execCompletionSent (p : PortId) (s : State) : Host.Outcome State Fault Refusal :=
  s.take (s.completionSent p)

/-- CREDIT_BEGIN (R141). -/
def execCreditBegin (p : PortId) (s : State) : Host.Outcome State Fault Refusal :=
  s.take (s.creditBegin p)

/-- CREDIT_SENT (R141). -/
def execCreditSent (p : PortId) (s : State) : Host.Outcome State Fault Refusal :=
  s.take (s.creditSent p)

end Sys2Proof.Machine
end

