-- ==== Sys2Proof/Machine/StartUp.lean ====
section
/-! DEFINITION. The Start-Up Unit (Section 10): power-on reset, the end of the configuration load, warm reset, and the tick
of the microsecond counter. -/

namespace Sys2Proof.Machine

/-! ## Power-on reset -/

/-- The flash lines as the load begins: select asserted, a read command of 03H and a 24-bit address of 0
shifted out (R185). -/
def Flash.loadBegun : Flash where
  select := true
  out := [0x03, 0x00, 0x00, 0x00]
  bytesRead := 0

/-- The flash lines idle (R184). -/
def Flash.idle : Flash where
  select := false
  out := []
  bytesRead := 0

/-- The power-on values of every block (R184), the load in progress. The levels of the inputs, the
commands that wait and the number of write images made are not the part's and are kept. The frame
handling is IDLE, or SPENT while select is asserted (R169). -/
def State.powerOnValues (s : State) : State where
  pins := { s.pins with powerOnReset := false }
  startUp :=
    { partState := .loading, loadResult := .inProgress, counter := 0,
      params := Params.default, mask := AlertMask.allEnabled, flash := Flash.loadBegun }
  table := { windows := vecOf 8 fun _ => Window.zero, catchAll := CatchAll.fallback }
  queue := []
  tracker := []
  nextPlace := 0
  readAhead :=
    { streams := vecOf 4 fun _ => none, lines := vecOf 16 fun _ => none, nextFetch := 0 }
  memPort := { slots := vecOf 4 fun _ => .free, passedOver := 0, lastRequest := [] }
  portA := Port.powerOn s.portA.resetInput s.portA.linkReady
  portB := Port.powerOn s.portB.resetInput s.portB.linkReady
  log := { records := [], overflow := 0 }
  alertLine := false
  maint :=
    { frame := if s.pins.select then .spent else .idle, commandPart := [], response := [] }
  quiesce := .running
  pending := s.pending
  images := s.images

/-- The part while the power-on reset input is asserted (R184): nothing it held survives, the flash lines
are idle, the counter is held at 0 and the alert line is released. The blocks stand at their power-on
values (log 4). -/
def State.heldInReset (s : State) : State :=
  let v := s.powerOnValues
  { v with
    pins := { s.pins with powerOnReset := true }
    startUp := { v.startUp with flash := Flash.idle } }

/-- POWER_ON_RESET_ASSERT (R184). An input already asserted has no such event. -/
def execPowerOnResetAssert (s : State) : Host.Outcome State Fault Refusal :=
  if s.pins.powerOnReset then .next s else .next s.heldInReset

/-- POWER_ON_RESET_RELEASE (R184). An input already released has no such event. -/
def execPowerOnResetRelease (s : State) : Host.Outcome State Fault Refusal :=
  if s.pins.powerOnReset then .next s.powerOnValues else .next s

/-! ## End of the load -/

/-- The window table of a loaded image: windows N to 7 take the zero record (R18, R188). -/
def Image.table (image : Image) : WindowTable where
  windows := vecOf 8 fun i => image.windows.getD i Window.zero
  catchAll := { mode := image.mode, retry := image.retry, dropCount := 0 }

/-- The window table of the fallback (R189). -/
def fallbackTable : WindowTable where
  windows := vecOf 8 fun _ => Window.zero
  catchAll := CatchAll.fallback

/-- A port at the end of the load: its owed counts are its allocations, its held counts 0 (R188). -/
def Port.loaded (port : Port) (params : Params) (p : PortId) : Port :=
  { port with
    writeHeld := 0
    writeOwed := params.writeAllocation p
    requestHeld := 0
    requestOwed := params.requestAllocation p }

/-- Put a configuration in force: table, parameters, credits, load result; the part is RUNNING and the
flash lines are released (R185, R188, R189). -/
def State.configured (s : State) (table : WindowTable) (params : Params) (mask : AlertMask)
    (result : LoadResult) (read : Nat) : State :=
  { s with
    startUp :=
      { s.startUp with
        partState := .running, loadResult := result, params := params, mask := mask,
        flash := { s.startUp.flash with select := false, bytesRead := read } }
    table := table
    portA := s.portA.loaded params .a
    portB := s.portB.loaded params .b }

/-- The end of a load that passes (R188) or fails (R189); the ports then go ACTIVE by R131. -/
def State.endLoad (s : State) (flash : List Byte) : State :=
  let loaded :=
    match checkImage flash with
    | .ok image => s.configured image.table image.params image.mask .ok (bytesRead flash)
    | .error cause =>
      (s.configured fallbackTable Params.default AlertMask.allEnabled (.failed cause)
        (bytesRead flash)).logEvent (.configFallback cause)
  (loaded.linkUp .a).linkUp .b

/-- LOAD_END (R188, R189): only while the part is LOADING is there a load to end. -/
def execLoadEnd (flash : List Byte) (s : State) : Host.Outcome State Fault Refusal :=
  s.take
    (match s.startUp.partState with
    | .loading => some (s.endLoad flash)
    | .running => none)

/-! ## Warm reset -/

/-- A port at a warm reset (R151): DOWN, its work discarded, owed its full allocations. -/
def Port.warmReset (port : Port) (params : Params) (p : PortId) : Port :=
  { port.discarded (params.writeAllocation p) (params.requestAllocation p) 0 with state := .down }

/-- The maintenance port at a warm reset (R169): a frame in progress is ended and the port is SPENT. -/
def Maintenance.warmReset (m : Maintenance) : Maintenance :=
  match m.frame with
  | .idle => m
  | .spent => m
  | .receiving => { frame := .spent, commandPart := [], response := [] }
  | .answering => { frame := .spent, commandPart := [], response := [] }

/-- WARM_RESET_LOSS is appended when records or entries were discarded (R164). -/
def State.logLoss (s : State) (records entries : Nat) : State :=
  if records = 0 ∧ entries = 0 then s else s.logEvent (.warmResetLoss records entries)

/-- The assertion of warm reset (R191, Table 10-4). -/
def State.warmReset (s : State) : State :=
  { s with
    queue := []
    tracker := []
    nextPlace := 0
    readAhead :=
      { streams := vecOf 4 fun _ => none, lines := vecOf 16 fun _ => none, nextFetch := 0 }
    memPort := { s.memPort with slots := vecOf 4 fun _ => .free, passedOver := 0 }
    portA := s.portA.warmReset s.startUp.params .a
    portB := s.portB.warmReset s.startUp.params .b
    maint := s.maint.warmReset
    quiesce := .running }.logLoss s.queue.length s.tracker.length

/-- The level of the warm reset input, followed even while the power-on reset is asserted (log 5). -/
def State.setWarmInput (s : State) (level : Bool) : State :=
  { s with pins := { s.pins with warmReset := level } }

/-- WARM_RESET_ASSERT (R191). An input already asserted has no such event. -/
def execWarmResetAssert (s : State) : Host.Outcome State Fault Refusal :=
  if s.pins.warmReset then .next s
  else (s.setWarmInput true).take (some (s.setWarmInput true).warmReset)

/-- WARM_RESET_RELEASE (R191). -/
def execWarmResetRelease (s : State) : Host.Outcome State Fault Refusal :=
  if s.pins.warmReset then
    (s.setWarmInput false).take (some (((s.setWarmInput false).linkUp .a).linkUp .b))
  else .next s

/-! ## The counter -/

/-- One microsecond passes: the counter rises by 1, modulo 2^32, but is held at 0 while the power-on
reset input is asserted (R193). The step takes it when no command waits (log 7). -/
def State.tick (s : State) : State :=
  if s.pins.powerOnReset then s
  else { s with startUp := { s.startUp with counter := s.startUp.counter + 1 } }

end Sys2Proof.Machine
end

