-- ==== Sys2Proof/Machine/MaintenancePort.lean ====
section
/-! DEFINITION. The maintenance port (Section 9): frames, the weighing of commands, and the meaning of every maintenance
command. -/

namespace Sys2Proof.Machine

/-! ## Frames -/

/-- The level of select, followed even while the power-on reset is asserted (log 5). -/
def State.setSelect (s : State) (level : Bool) : State :=
  { s with pins := { s.pins with select := level } }

/-- Select asserted: IDLE goes to RECEIVING (R166). -/
def Maintenance.selected (m : Maintenance) : Maintenance :=
  match m.frame with
  | .idle => { frame := .receiving, commandPart := [], response := [] }
  | .receiving => m
  | .answering => m
  | .spent => m

/-- Select released: IDLE; a frame in RECEIVING is cut (R166, R167). -/
def Maintenance.released (_m : Maintenance) : Maintenance where
  frame := .idle
  commandPart := []
  response := []

/-- SELECT_ASSERT (R166). An input already asserted has no such event. -/
def execSelectAssert (s : State) : Host.Outcome State Fault Refusal :=
  if s.pins.select then .next s
  else (s.setSelect true).take (some { s.setSelect true with maint := s.maint.selected })

/-- SELECT_RELEASE (R166). -/
def execSelectRelease (s : State) : Host.Outcome State Fault Refusal :=
  if s.pins.select then
    (s.setSelect false).take (some { s.setSelect false with maint := s.maint.released })
  else .next s

/-- LAST_BIT_OF_RESPONSE_SENT: ANSWERING goes to SPENT (R166). -/
def execLastBitOfResponseSent (s : State) : Host.Outcome State Fault Refusal :=
  s.take
    (match s.maint.frame with
    | .answering => some { s with maint := { s.maint with frame := .spent } }
    | .idle => none
    | .receiving => none
    | .spent => none)

/-! ## Taking a command -/

/-- Response statuses (R168). -/
inductive Answer where
  | done (data : List Byte)
  | refused
  | badArg
  | unknown
  deriving DecidableEq, Repr

/-- The response, status byte first; data only with DONE (Section 11.3). -/
def Answer.bytes : Answer → List Byte
  | .done data => 0x00 :: data
  | .refused => [0x01]
  | .badArg => [0x02]
  | .unknown => [0x03]

/-- The response is sent (R166). -/
def State.answered (s : State) (command : List Byte) (a : Answer) : State :=
  { s with maint := { frame := .answering, commandPart := command, response := a.bytes } }

/-- A command is taken when its command part is whole (R167), and only in RECEIVING: in ANSWERING and
SPENT the bits on in are ignored (R166, log 16). -/
def State.takeCommand (s : State) (i : Instr) (r : State × Answer) :
    Host.Outcome State Fault Refusal :=
  s.take
    (match s.maint.frame with
    | .receiving => some (r.1.answered i.commandPart r.2)
    | .idle => none
    | .answering => none
    | .spent => none)

/-- Step 2 of R168: during LOADING the command is REFUSED. -/
def State.whenRunning (s : State) (r : State × Answer) : State × Answer :=
  match s.startUp.partState with
  | .running => r
  | .loading => (s, .refused)

/-- The window a byte names, 0 to 7 (Table 9-2). -/
def windowArg (n : Byte) : Option WindowId :=
  if h : n.toNat < 8 then some ⟨n.toNat, h⟩ else none

/-- Steps 3 and 4 of R168 for a command on window `n`: BAD_ARG when there is none. -/
def State.withWindow (s : State) (n : Byte) (f : WindowId → State × Answer) : State × Answer :=
  match windowArg n with
  | none => (s, .badArg)
  | some w => f w

/-! ## Effects -/

/-- SET_WINDOW on a valid record (R15): REFUSED unless the window is DISABLED. -/
def State.setWindow (s : State) (w : WindowId) (fields : WindowFields) : State × Answer :=
  if s.table.windows[w].state = .disabled then
    let record : Window := { state := .disabled, fields := fields, dropCount := 0 }
    ({ s with table := { s.table with windows := s.table.windows.set w record } }, .done [])
  else (s, .refused)

/-- ENABLE_WINDOW (R12). -/
def State.enableWindow (s : State) (w : WindowId) : State × Answer :=
  match s.table.windows[w].state with
  | .disabled => ({ s with table := s.table.setState w .enabled }, .done [])
  | .enabled => (s, .refused)
  | .frozen => (s, .refused)

/-- The window goes to DISABLED and its streams are retired at the same moment (R13, R89). -/
def State.windowDisabled (s : State) (w : WindowId) : State :=
  let t : State := { s with table := s.table.setState w .disabled }
  let retired := t.readAhead.retireWhere fun st => decide (st.window = w)
  { t with readAhead := retired.topUp t.fetchEnv }

/-- DISABLE_WINDOW (R13). -/
def State.disableWindow (s : State) (w : WindowId) : State × Answer :=
  match s.table.windows[w].state with
  | .disabled => (s, .refused)
  | .enabled => (s.windowDisabled w, .done [])
  | .frozen => (s.windowDisabled w, .done [])

/-- THAW_WINDOW (R14). -/
def State.thawWindow (s : State) (w : WindowId) : State × Answer :=
  match s.table.windows[w].state with
  | .frozen => ({ s with table := s.table.setState w .enabled }, .done [])
  | .disabled => (s, .refused)
  | .enabled => (s, .refused)

/-- SET_CATCHALL (R15): mode and retry limit replaced, drop count 0. -/
def State.setCatchall (s : State) (mode : CatchMode) (retry : RetryLimit) : State :=
  let record : CatchAll := { mode := mode, retry := retry, dropCount := 0 }
  { s with table := { s.table with catchAll := record } }

/-- The allocations of a SET_PARAMS differ from the present ones (R174). -/
def Params.changesAllocations (old new : Params) : Bool :=
  !(decide (new.writeA = old.writeA) && decide (new.requestA = old.requestA))

/-- The state refuses changed allocations (R174): a port is ACTIVE, or a port's queued records exceed its
new write allocation. -/
def State.refusesAllocations (s : State) (new : Params) : Bool :=
  decide (s.portA.state = .active) || decide (s.portB.state = .active) ||
    decide (new.writeAllocation .a < queuedRecords s.queue .a) ||
    decide (new.writeAllocation .b < queuedRecords s.queue .b)

/-- A port's owed counts set afresh for new allocations (R143). -/
def Port.reallocated (port : Port) (params : Params) (p : PortId) (queued : Nat) : Port :=
  { port with
    writeOwed := params.writeAllocation p - queued
    requestOwed := params.requestAllocation p }

/-- The parameters are replaced, and with changed allocations the owed counts are set afresh (R143, R173). -/
def State.replaceParams (s : State) (new : Params) : State :=
  let t : State := { s with startUp := { s.startUp with params := new } }
  if s.startUp.params.changesAllocations new then
    { t with
      portA := t.portA.reallocated new .a (queuedRecords s.queue .a)
      portB := t.portB.reallocated new .b (queuedRecords s.queue .b) }
  else t

/-- A changed idle time: every stream already past the new value expires at once (R88, R173; log 11). -/
def State.expireAtOnce (s : State) (oldIdle : Nat) : State :=
  if s.startUp.params.idle = oldIdle then s
  else
    let due := Stream.expired s.startUp.counter s.startUp.params.idle
    { s with readAhead := (s.readAhead.retireWhere due).topUp s.fetchEnv }

/-- SET_PARAMS with every value in range (R173, R174). -/
def State.setParams (s : State) (new : Params) : State × Answer :=
  if s.startUp.params.changesAllocations new = true ∧ s.refusesAllocations new = true then
    (s, .refused)
  else ((s.replaceParams new).expireAtOnce s.startUp.params.idle, .done [])

/-- SET_ALERT_MASK (R175). -/
def State.setAlertMask (s : State) (mask : AlertMask) : State :=
  { s with startUp := { s.startUp with mask := mask } }

/-- POP_LOG: the oldest record is removed, or REFUSED when the log is empty (R158). -/
def State.popLog (s : State) : State × Answer :=
  match s.log.records with
  | [] => (s, .refused)
  | _ :: rest => ({ s with log := { s.log with records := rest } }, .done [])

/-- CLEAR_OVERFLOW (R159). -/
def State.clearOverflow (s : State) : State :=
  { s with log := { s.log with overflow := 0 } }

/-- An ORPHANED slot becomes FREE (R126). -/
def Slot.reclaimed (slot : Slot) : Slot :=
  if slot.isOrphaned then .free else slot

/-- RECLAIM_SLOTS: every ORPHANED slot is freed, logged when there was one, and the held-back reads are
weighed (R126). -/
def State.reclaimSlots (s : State) : State × Answer :=
  let freed := s.memPort.count Slot.isOrphaned
  let t : State :=
    { s with memPort := { s.memPort with slots := mapVec Slot.reclaimed s.memPort.slots } }
  let logged := if 0 < freed then t.logEvent (.slotReclaimed freed) else t
  (logged.weighReads, .done [byteOf freed])

/-- QUIESCE (R178): QUIESCING, or QUIESCED when the part already holds no work; the response carries the
state the command leaves. -/
def State.beginQuiesce (s : State) : State × Answer :=
  match s.quiesce with
  | .running =>
    let t := { s with quiesce := .quiescing }.weighQuiesce
    (t, .done [t.quiesce.code])
  | .quiescing => (s, .refused)
  | .quiesced => (s, .refused)

/-- RESUME (R181). -/
def State.resume (s : State) : State × Answer :=
  match s.quiesce with
  | .running => (s, .refused)
  | .quiescing => ({ s with quiesce := .running }, .done [])
  | .quiesced => ({ s with quiesce := .running }, .done [])

/-! ## Commands -/

/-- UNKNOWN_COMMAND: answered UNKNOWN, with no effect; the frame is ANSWERING until the last bit of the
response has been sent, and then SPENT (R166, R167; log 12). A code that names a command is not taken so
(log 25). -/
def execUnknownCommand (code : Byte) (s : State) : Host.Outcome State Fault Refusal :=
  if knownCode code then .next s else s.takeCommand (.unknownCommand code) (s, .unknown)

/-- GET_STATUS (R170): taken in every part state. -/
def execGetStatus (s : State) : Host.Outcome State Fault Refusal :=
  s.takeCommand .getStatus (s, .done s.statusBytes)

/-- GET_WINDOW (R171). -/
def execGetWindow (n : Byte) (s : State) : Host.Outcome State Fault Refusal :=
  s.takeCommand (.getWindow n)
    (s.whenRunning (s.withWindow n fun w => (s, .done s.table.windows[w].bytes)))

/-- SET_WINDOW (R15, R172): BAD_ARG before REFUSED. -/
def execSetWindow (n : Byte) (record : WindowBytes) (s : State) :
    Host.Outcome State Fault Refusal :=
  s.takeCommand (.setWindow n record)
    (s.whenRunning (s.withWindow n fun w =>
      match windowFieldsOf record with
      | none => (s, .badArg)
      | some fields => s.setWindow w fields))

/-- ENABLE_WINDOW (R12). -/
def execEnableWindow (n : Byte) (s : State) : Host.Outcome State Fault Refusal :=
  s.takeCommand (.enableWindow n) (s.whenRunning (s.withWindow n s.enableWindow))

/-- DISABLE_WINDOW (R13). -/
def execDisableWindow (n : Byte) (s : State) : Host.Outcome State Fault Refusal :=
  s.takeCommand (.disableWindow n) (s.whenRunning (s.withWindow n s.disableWindow))

/-- THAW_WINDOW (R14). -/
def execThawWindow (n : Byte) (s : State) : Host.Outcome State Fault Refusal :=
  s.takeCommand (.thawWindow n) (s.whenRunning (s.withWindow n s.thawWindow))

/-- GET_CATCHALL (R171). -/
def execGetCatchall (s : State) : Host.Outcome State Fault Refusal :=
  s.takeCommand .getCatchall (s.whenRunning (s, .done s.table.catchAll.bytes))

/-- SET_CATCHALL (R15). -/
def execSetCatchall (mode retryCode : Byte) (s : State) : Host.Outcome State Fault Refusal :=
  s.takeCommand (.setCatchall mode retryCode)
    (s.whenRunning
      (match modeOf mode, retryOf retryCode with
      | some m, some r => (s.setCatchall m r, .done [])
      | _, _ => (s, .badArg)))

/-- GET_PARAMS (R171). -/
def execGetParams (s : State) : Host.Outcome State Fault Refusal :=
  s.takeCommand .getParams
    (s.whenRunning (s, .done (paramData s.startUp.params s.startUp.mask)))

/-- SET_PARAMS (R173, R174). -/
def execSetParams (params : ParamBytes) (s : State) : Host.Outcome State Fault Refusal :=
  s.takeCommand (.setParams params)
    (s.whenRunning
      (match paramsOf params with
      | none => (s, .badArg)
      | some new => s.setParams new))

/-- SET_ALERT_MASK (R175). -/
def execSetAlertMask (mask : Byte) (s : State) : Host.Outcome State Fault Refusal :=
  s.takeCommand (.setAlertMask mask)
    (s.whenRunning
      (match maskOf mask with
      | none => (s, .badArg)
      | some m => (s.setAlertMask m, .done [])))

/-- PEEK_LOG (R157, R176). -/
def execPeekLog (s : State) : Host.Outcome State Fault Refusal :=
  s.takeCommand .peekLog (s.whenRunning (s, .done s.log.peekBytes))

/-- POP_LOG (R158). -/
def execPopLog (s : State) : Host.Outcome State Fault Refusal :=
  s.takeCommand .popLog (s.whenRunning s.popLog)

/-- CLEAR_OVERFLOW (R159). -/
def execClearOverflow (s : State) : Host.Outcome State Fault Refusal :=
  s.takeCommand .clearOverflow (s.whenRunning (s.clearOverflow, .done []))

/-- RECLAIM_SLOTS (R126, R177). -/
def execReclaimSlots (s : State) : Host.Outcome State Fault Refusal :=
  s.takeCommand .reclaimSlots (s.whenRunning s.reclaimSlots)

/-- QUIESCE (R178). -/
def execQuiesce (s : State) : Host.Outcome State Fault Refusal :=
  s.takeCommand .quiesce (s.whenRunning s.beginQuiesce)

/-- RESUME (R181). -/
def execResume (s : State) : Host.Outcome State Fault Refusal :=
  s.takeCommand .resume (s.whenRunning s.resume)

end Sys2Proof.Machine
end

