-- ==== Sys2Proof/Machine/Dispatch.lean ====
section
/-! DEFINITION. One arm for each command: the meaning it has. -/

namespace Sys2Proof.Machine

def exec (i : Instr) (s : State) : Host.Outcome State Fault Refusal :=
  match i with
  | .powerOnResetAssert => Sys2Proof.Machine.execPowerOnResetAssert s
  | .powerOnResetRelease => Sys2Proof.Machine.execPowerOnResetRelease s
  | .loadEnd flash => Sys2Proof.Machine.execLoadEnd flash s
  | .warmResetAssert => Sys2Proof.Machine.execWarmResetAssert s
  | .warmResetRelease => Sys2Proof.Machine.execWarmResetRelease s
  | .portResetAssert port => Sys2Proof.Machine.execPortResetAssert port s
  | .linkReadyLoss port => Sys2Proof.Machine.execLinkReadyLoss port s
  | .portResetRelease port => Sys2Proof.Machine.execPortResetRelease port s
  | .linkReadyArrival port => Sys2Proof.Machine.execLinkReadyArrival port s
  | .requestRead port rest => Sys2Proof.Machine.execRequestRead port rest s
  | .requestWrite port rest => Sys2Proof.Machine.execRequestWrite port rest s
  | .requestFence port rest => Sys2Proof.Machine.execRequestFence port rest s
  | .grant => Sys2Proof.Machine.execGrant s
  | .response message => Sys2Proof.Machine.execResponse message s
  | .slotDeadline slot => Sys2Proof.Machine.execSlotDeadline slot s
  | .writeBackoffEnd => Sys2Proof.Machine.execWriteBackoffEnd s
  | .readBackoffEnd port tag => Sys2Proof.Machine.execReadBackoffEnd port tag s
  | .fetchBackoffEnd line => Sys2Proof.Machine.execFetchBackoffEnd line s
  | .idleExpiry stream => Sys2Proof.Machine.execIdleExpiry stream s
  | .completionBegin port => Sys2Proof.Machine.execCompletionBegin port s
  | .completionSent port => Sys2Proof.Machine.execCompletionSent port s
  | .creditBegin port => Sys2Proof.Machine.execCreditBegin port s
  | .creditSent port => Sys2Proof.Machine.execCreditSent port s
  | .selectAssert => Sys2Proof.Machine.execSelectAssert s
  | .selectRelease => Sys2Proof.Machine.execSelectRelease s
  | .lastBitOfResponseSent => Sys2Proof.Machine.execLastBitOfResponseSent s
  | .unknownCommand code => Sys2Proof.Machine.execUnknownCommand code s
  | .getStatus => Sys2Proof.Machine.execGetStatus s
  | .getWindow n => Sys2Proof.Machine.execGetWindow n s
  | .setWindow n record => Sys2Proof.Machine.execSetWindow n record s
  | .enableWindow n => Sys2Proof.Machine.execEnableWindow n s
  | .disableWindow n => Sys2Proof.Machine.execDisableWindow n s
  | .thawWindow n => Sys2Proof.Machine.execThawWindow n s
  | .getCatchall => Sys2Proof.Machine.execGetCatchall s
  | .setCatchall mode retryCode => Sys2Proof.Machine.execSetCatchall mode retryCode s
  | .getParams => Sys2Proof.Machine.execGetParams s
  | .setParams params => Sys2Proof.Machine.execSetParams params s
  | .setAlertMask mask => Sys2Proof.Machine.execSetAlertMask mask s
  | .peekLog => Sys2Proof.Machine.execPeekLog s
  | .popLog => Sys2Proof.Machine.execPopLog s
  | .clearOverflow => Sys2Proof.Machine.execClearOverflow s
  | .reclaimSlots => Sys2Proof.Machine.execReclaimSlots s
  | .quiesce => Sys2Proof.Machine.execQuiesce s
  | .resume => Sys2Proof.Machine.execResume s
  | .requestOfNoKnownKind port message => Sys2Proof.Machine.execRequestOfNoKnownKind port message s

end Sys2Proof.Machine
end

