-- ==== Sys2Proof/Safety.lean ====
section
/-! DEFINITION. The laws of the part as invariants of its state: what the manual calls a law, and what the laws rest on.
Each is a Bool that can be computed on a state. `StepKeeps` says that every step keeps one. -/

namespace Sys2Proof.Machine

/-- Every step from a state where `inv` holds leads to a state where it holds. -/
def StepKeeps (inv : State → Bool) : Prop :=
  ∀ s t : State, inv s = true → step s = .next t → inv t = true

/-! ## Laws that stand alone -/

/-- The log holds at most eight records and its overflow count does not exceed 255 (R155). -/
def State.logBounded (s : State) : Bool :=
  decide (s.log.records.length ≤ 8) && decide (s.log.overflow ≤ 255)

/-- The alert line is asserted exactly while an enabled cause holds (R160). -/
def State.alertFollows (s : State) : Bool :=
  decide (s.alertLine = s.alertDue)

/-- Each global parameter is within its range (R192). -/
def State.paramsInRange (s : State) : Bool :=
  s.startUp.params.valid

/-- A window record is valid (R3), its drop count at most 65535 (R11), and if it is FROZEN its fault action is
FREEZE (R39). -/
def Window.sound (w : Window) : Bool :=
  w.fields.valid && decide (w.dropCount ≤ 65535) &&
    (!decide (w.state = .frozen) || decide (w.fields.fault = .freeze))

/-- The table holds valid records only (R3). -/
def State.tableSound (s : State) : Bool :=
  (allWindows.all fun n => s.table.windows[n].sound) &&
    decide (s.table.catchAll.dropCount ≤ 65535)

/-- A write record names a FROZEN window. -/
def State.isFrozenRef (s : State) : WindowRef → Bool
  | .catchAll => false
  | .window n => decide (s.table.windows[n].state = .frozen)

/-- The queue holds no record of a FROZEN window (R39). -/
def State.frozenDrained (s : State) : Bool :=
  s.queue.all fun r => !s.isFrozenRef r.window

/-- Only the head leaves QUEUED (R27, R39). -/
def State.onlyHeadMoves (s : State) : Bool :=
  s.queue.tail.all fun r => decide (r.state = .queued)

/-- QUIESCED holds exactly while a quiesce is under way and the part holds no work (R179, R180). -/
def State.quiesceFollows (s : State) : Bool :=
  match s.quiesce with
  | .running => true
  | .quiescing => !s.holdsNoWork
  | .quiesced => s.holdsNoWork

/-- The passed-over count never passes 4 (R124). -/
def State.passedOverBounded (s : State) : Bool :=
  decide (s.memPort.passedOver ≤ 4)

/-- At most one slot holds a write in BUSY or ORPHANED (R27, R108). -/
def State.oneWriteSlot (s : State) : Bool :=
  decide (s.memPort.count Slot.holdsWrite ≤ 1)

/-! ## Credits (R41, R139) -/

/-- A port that is not ACTIVE holds no work and its master no credit (R132, R149, R151). -/
def State.idlePort (s : State) (p : PortId) : Bool :=
  decide ((s.port p).state = .active) ||
    (decide ((s.port p).writeHeld = 0) && decide ((s.port p).requestHeld = 0) &&
      decide ((s.port p).done = []) && decide ((s.port p).link = .idle) &&
      decide (liveEntries s.tracker p = 0))

/-- During LOADING both ports are DOWN and every block is empty (R170, R183). -/
def State.loadingEmpty (s : State) : Bool :=
  decide (s.startUp.partState = .running) ||
    (decide (s.portA.state = .down) && decide (s.portB.state = .down) && s.queue.isEmpty &&
      s.tracker.isEmpty && (allStreams.all fun k => s.readAhead.streams[k].isNone) &&
      (allLines.all fun i => s.readAhead.lines[i].isNone) &&
      (allSlots.all fun i => s.memPort.slots[i].isFree))

/-- A port's write records in the queue, plus its held and owed write credits, equal its write allocation
(R41). -/
def State.writeCreditsWhole (s : State) (p : PortId) : Bool :=
  decide (queuedRecords s.queue p + (s.port p).writeHeld + (s.port p).writeOwed =
    s.startUp.params.writeAllocation p)

/-- A port's live entries, plus its held and owed request credits, equal its request allocation (R139). -/
def State.requestCreditsWhole (s : State) (p : PortId) : Bool :=
  decide (liveEntries s.tracker p + (s.port p).requestHeld + (s.port p).requestOwed =
    s.startUp.params.requestAllocation p)

/-- Both credit laws at both ports, with what they rest on. -/
def State.creditsWhole (s : State) : Bool :=
  s.paramsInRange && s.loadingEmpty && [PortId.a, PortId.b].all fun p =>
    s.idlePort p && s.writeCreditsWhole p && s.requestCreditsWhole p

/-! ## The acceptance order, tags and read ordering (R47, R48, R51) -/

/-- The places an entry names: its own and those of its horizon. -/
def Entry.places (e : Entry) : List Nat :=
  match e.kind with
  | .read r => e.place :: r.horizon
  | .ackedWrite => [e.place]
  | .fence f => e.place :: f.horizon

/-- A list of numbers rises strictly. -/
def rising : List Nat → Bool
  | [] => true
  | n :: rest => rest.all (fun m => decide (n < m)) && rising rest

/-- Records and entries stand in acceptance order, with no place used twice in one list, and every place in
use lies before the next one (R22, R47). -/
def State.orderSound (s : State) : Bool :=
  rising (s.queue.map WriteRecord.place) && rising (s.tracker.map Entry.place) &&
    (s.queue.all fun r => decide (r.place < s.nextPlace)) &&
    (s.tracker.all fun e => e.places.all fun p => decide (p < s.nextPlace)) &&
    (allLines.all fun i => s.readAhead.lineIs
      (fun l => l.horizon.all fun p => decide (p < s.nextPlace)) i || s.readAhead.lines[i].isNone)

/-- No two live entries of one port hold one tag (R48). -/
def State.tagsUnique (s : State) : Bool :=
  decide ((s.tracker.map fun e => (e.port, e.tag)).Nodup)

/-- Every READ in READY is eligible and every READ in ORDER_WAIT is not, so that weighing changes no entry
(R51, R52); the acceptance order is sound. -/
def State.readsWeighed (s : State) : Bool :=
  s.orderSound && s.tracker.all fun e =>
    decide (weighEntry s.queue s.memPort.orphanedWriteLines e = e)

/-! ## The pool (R68, R70) -/

/-- What R70 says of a line that is not FREE: its owner is an ACTIVE stream that lists it; a VALID line has an
owner and no attached reads; a stale line is ownerless. -/
def ReadAhead.lineSound (ra : ReadAhead) (i : LineId) : Bool :=
  match ra.lines[i] with
  | none => true
  | some l =>
    (match l.owner with
      | none => true
      | some k => ra.streams[k].any fun st => st.owned.contains i) &&
    (!l.isValid || (l.owner.isSome && l.attached.isEmpty)) &&
    (!l.stale || l.owner.isNone)

/-- What R68 and R70 say of an ACTIVE stream: it owns at most its depth of lines, 1 to 4, each listed once
and each owned by it, and its window is not DISABLED. -/
def State.streamSound (s : State) (k : StreamId) : Bool :=
  match s.readAhead.streams[k] with
  | none => true
  | some st =>
    decide (1 ≤ st.depth) && decide (st.depth ≤ 4) && decide (st.owned.length ≤ st.depth) &&
      decide st.owned.Nodup &&
      (st.owned.all fun i => s.readAhead.lineIs (fun l => decide (l.owner = some k)) i) &&
      !decide (s.table.windows[st.window].state = .disabled)

/-- The pool's law (R70), with what it rests on. -/
def State.poolSound (s : State) : Bool :=
  s.tableSound && s.loadingEmpty && (allLines.all s.readAhead.lineSound) &&
    (allStreams.all s.streamSound)

/-! ## Owners: every piece of work in flight is held in exactly one place -/

/-- The entry at a place is live and `f` holds of it. -/
def State.entryIs (s : State) (place : Nat) (f : Entry → Bool) : Bool :=
  (s.entryAt place).any f

/-- An entry is DONE. -/
def Entry.isDone (e : Entry) : Bool :=
  match e.state with
  | .done _ _ => true
  | _ => false

/-- A slot's owner is in its issued state (R107). -/
def State.slotSound (s : State) : Slot → Bool
  | .busy (.write place) line _ =>
    s.queue.head?.any fun r =>
      decide (r.place = place) && decide (r.state = .issued) && decide (r.line = line)
  | .busy (.demand (some place)) _ _ =>
    s.entryIs place fun e => decide (e.state = .issued)
  | .busy (.fetch i) line _ =>
    s.readAhead.lineIs (fun l => decide (l.state = .fetching) && decide (l.target = line)) i
  | _ => true

/-- The owners of the BUSY slots; an absent owner is left out. -/
def State.slotOwners (s : State) : List SlotOwner :=
  s.memPort.slots.toArray.toList.filterMap fun
    | .busy (.demand none) _ _ => none
    | .busy owner _ _ => some owner
    | _ => none

/-- The reads on attached-read lists, line by line. -/
def State.attachedReads (s : State) : List Nat :=
  (allLines.map s.readAhead.attachedTo).flatten

/-- A write record's link names its own ACKED_WRITE entry in QUEUED (R21, R25). -/
def State.linkSound (s : State) (r : WriteRecord) : Bool :=
  match r.link with
  | none => true
  | some place =>
    decide (place = r.place) && s.entryIs place fun e =>
      decide (e.kind = .ackedWrite) && decide (e.state = .queued) && decide (e.port = r.port) &&
        decide (r.ackTag = some e.tag)

/-- Each entry is where its state says (Table 3-2): an ISSUED read owns a slot, an ATTACHED read is on a list,
a QUEUED acked write has its record, a PENDING fence has a record to wait for, and a DONE entry is on its
port's completion order list. -/
def State.entrySound (s : State) (e : Entry) : Bool :=
  match e.state, e.kind with
  | .orderWait, .read _ => true
  | .ready, .read _ => true
  | .backoff _, .read _ => true
  | .issued, .read _ => s.slotOwners.contains (.demand (some e.place))
  | .attached, .read _ => s.attachedReads.contains e.place
  | .queued, .ackedWrite => s.queue.any fun r => decide (r.link = some e.place)
  | .pending, .fence f =>
    !f.horizon.isEmpty && f.horizon.all fun p => s.queue.any fun r => decide (r.place = p)
  | .done _ _, _ => (s.port e.port).done.contains e.place
  | _, _ => false

/-- A completion order list holds its port's DONE entries, each once (R63). -/
def State.listSound (s : State) (p : PortId) : Bool :=
  decide (s.port p).done.Nodup &&
    (s.port p).done.all fun place =>
      s.entryIs place fun e => e.isDone && decide (e.port = p)

/-- Every piece of work in flight is held in exactly one place (R63, R65, R70, R107), with the orders it rests
on. -/
def State.workSound (s : State) : Bool :=
  s.orderSound && s.onlyHeadMoves && s.poolSound &&
    (s.memPort.slots.toArray.toList.all s.slotSound) && decide s.slotOwners.Nodup &&
    decide s.attachedReads.Nodup &&
    (s.attachedReads.all fun place => s.entryIs place fun e => decide (e.state = .attached)) &&
    (s.queue.all s.linkSound) && (s.tracker.all s.entrySound) &&
    [PortId.a, PortId.b].all fun p => s.idlePort p && s.listSound p

/-! ## Read-ahead coherence (R80, R86) -/

/-- A line that is not FREE cannot give a later read of its target line data older than the write record:
it is not VALID, and it is stale or is PENDING with the record in its fetch horizon. -/
def ReadAhead.lineAfter (ra : ReadAhead) (r : WriteRecord) (i : LineId) : Bool :=
  match ra.lines[i] with
  | none => true
  | some l =>
    !decide (l.target = r.line) || (!l.isValid && (l.stale || (l.isPending && l.horizon.contains r.place)))

/-- While a write record is queued, no VALID line holds its target line, and every line on its way to that
target line is stale or waits for the record (R80, R86). -/
def State.poolBehindQueue (s : State) : Bool :=
  s.orderSound && s.poolSound && s.queue.all fun r => allLines.all (s.readAhead.lineAfter r)

end Sys2Proof.Machine
end

