-- ==== Sys2Proof/Certificates/Slice0/Obligations.lean ====
section
/-! DEFINITION. The statements for the provers. A command's effect is stated as the state it leaves before the end of the
event, whatever is not named there being unchanged; what the end of every event does to the quiesce
state and the alert line is `EndOfEventSettles`. -/

namespace Sys2Proof.Machine

/-! ## Words of the statements -/

/-- The power-on reset input is released, so that the part takes events (R184). -/
def State.awake (s : State) : Prop :=
  s.pins.powerOnReset = false

/-- The part is awake and a frame is arriving (R166). -/
def State.receiving (s : State) : Prop :=
  s.awake ∧ s.maint.frame = .receiving

/-- The part takes every maintenance command (R168). -/
def State.serving (s : State) : Prop :=
  s.receiving ∧ s.startUp.partState = .running

/-- A maintenance command leaves `u`, its command part taken and its response on the way out. -/
def State.answering (u : State) (command response : List Byte) :
    Host.Outcome State Fault Refusal :=
  .next ({ u with
    maint := { frame := .answering, commandPart := command, response := response } }).settle

/-- A port whose link-up conditions hold goes ACTIVE if it is DOWN (R131). -/
def Port.comeUp (port : Port) (running warmReset : Bool) : Port :=
  if port.state = .down ∧ running = true ∧ warmReset = false ∧ port.resetInput = false ∧
      port.linkReady = true then
    { port with state := .active }
  else port

/-- The part state is RUNNING. -/
def State.isRunning (s : State) : Bool :=
  decide (s.startUp.partState = .running)

/-- A port with its work discarded and its credits set, in a state (R148, R149, R151). -/
def Port.cutOff (port : Port) (state : PortState) (params : Params) (p : PortId)
    (queued : Nat) : Port :=
  { port with
    state := state
    writeHeld := 0
    writeOwed := params.writeAllocation p - queued
    requestHeld := 0
    requestOwed := params.requestAllocation p
    dropFlag := false
    done := []
    link := .idle
    lastSent := .completion }

/-- The part with a port's work discarded (R44, R66, R90, R129, R148), the port in a state. -/
def State.cutOff (s : State) (p : PortId) (state : PortState) : State :=
  let gone := (s.tracker.filter fun e => e.port = p).map Entry.place
  { s with
    tracker := s.tracker.filter fun e => !decide (e.port = p)
    queue := s.queue.map fun r : WriteRecord => if r.port = p then { r with link := none } else r
    readAhead := s.readAhead.discardPort s.fetchEnv p gone
    memPort := { s.memPort with slots := mapVec (Slot.withoutEntries gone) s.memPort.slots }
    }.setPort p
      ((s.port p).cutOff state s.startUp.params p (queuedRecords s.queue p))

/-- The port and the request that a REQUEST command brings (R194). -/
def requestOf : Instr → Option (PortId × Request)
  | .requestRead p rest => some (p, parseRead rest)
  | .requestWrite p rest => some (p, parseWrite rest)
  | .requestFence p rest => some (p, parseFence rest)
  | .requestOfNoKnownKind p message => some (p, parseRequest message)
  | _ => none

/-- Steps 1 to 3 of R134: the protocol error that a request meets, if any. -/
def State.refusal (s : State) (p : PortId) (r : Request) : Option ProtocolCause :=
  match r.formError with
  | some cause => some cause
  | none =>
    if (r.needsWrite = true ∧ (s.port p).writeHeld = 0) ∨
        (r.needsRequest = true ∧ (s.port p).requestHeld = 0) then some .creditOverrun
    else if ∃ e ∈ s.tracker, e.port = p ∧ r.tag? = some e.tag then some .duplicateTag
    else none

/-- A request arrives at an ACTIVE port and passes steps 1 to 3 (R134). -/
def State.admits (s : State) (i : Instr) (p : PortId) (r : Request) : Prop :=
  s.awake ∧ requestOf i = some (p, r) ∧ (s.port p).state = .active ∧ s.refusal p r = none

/-- A port after step 2 (R136). -/
def Port.spent (port : Port) (r : Request) : Port :=
  { port with
    writeHeld := port.writeHeld - (if r.needsWrite then 1 else 0)
    requestHeld := port.requestHeld - (if r.needsRequest then 1 else 0) }

/-- The entry a READ makes (R49): the copies of R17, the span, a wait count of 0. -/
def State.readEntry (s : State) (p : PortId) (tag : Byte) (a : Addr) (n : Nat)
    (horizon : List Nat) (state : EntryState) : Entry :=
  let f := s.table.policy (s.table.matching a)
  { place := s.nextPlace, port := p, tag := tag, state := state,
    kind := .read
      { window := s.table.matching a, line := lineOf (f.translate a),
        mask := spanMask f.lane (offsetOf a) n, offset := offsetOf a, length := n,
        order := f.order, lane := f.lane, retry := f.retry, horizon := horizon, waitCount := 0 } }

/-- The places of the queued records. -/
def State.queuedPlaces (s : State) : List Nat :=
  s.queue.map WriteRecord.place

/-- A demand read's first state (R49, R51). -/
def State.firstState (s : State) (e : Entry) : EntryState :=
  match e.kind with
  | .read r => if readEligible s.queue s.memPort.orphanedWriteLines e.port r then .ready else .orderWait
  | _ => .orderWait

/-- An entry joins the tracker and takes the next place (R47). -/
def State.joined (s : State) (e : Entry) : State :=
  { s with tracker := s.tracker ++ [e], nextPlace := s.nextPlace + 1 }

/-- An entry that is DONE at its acceptance joins the tracker and its port's list (R63). -/
def State.joinedDone (s : State) (e : Entry) : State :=
  (s.joined e).setPort e.port { s.port e.port with done := (s.port e.port).done ++ [e.place] }

/-- An entry becomes DONE and joins its port's list (R63). -/
def State.endsAs (s : State) (e : Entry) (status : Status) (data : List Byte) : State :=
  { s with tracker := setEntryState s.tracker e.place (.done status data) }.setPort e.port
    { s.port e.port with done := (s.port e.port).done ++ [e.place] }

/-- The response names a slot, which becomes FREE. -/
def State.slotFreed (s : State) (i : SlotId) : State :=
  s.setSlot i .free

/-- A failed head record's effects by Table 2-3. -/
def State.headFailure (s : State) (head : WriteRecord) (rest : List WriteRecord)
    (cause : MemCause) : State :=
  match head.ackTag, head.link with
  | some _, some _ => s.depart rest [(head, .failed cause)]
  | some tag, none =>
    (s.logEvent (.unreportedWriteFailed head.port head.window head.line head.length tag
      head.waitCount cause)).depart rest [(head, .failed cause)]
  | none, _ =>
    let plain := (s.logEvent (.postedWriteFailed head.port head.window head.line head.length
      head.waitCount cause none)).depart rest [(head, .failed cause)]
    match head.window with
    | .catchAll => plain
    | .window n =>
      if head.fault = .freeze ∧ (s.table.windows[n]).state = .enabled ∧
          (s.table.windows[n]).fields.fault = .freeze then
        let window := { s.table.windows[n] with state := WindowState.frozen }
        let withdrawn := rest.filter fun r => decide (r.window = .window n)
        let kept := rest.filter fun r => !decide (r.window = .window n)
        ({ s with table := { s.table with windows := s.table.windows.set n window } }.logEvent
          (.postedWriteFailed head.port head.window head.line head.length head.waitCount cause
            (some withdrawn.length))).depart kept
          ((head, .failed cause) :: withdrawn.map fun r => (r, .withdrawn))
      else plain

/-- The part with the level that a command gives to one of its inputs; other commands drive none. -/
def State.driven (s : State) : Instr → State
  | .warmResetAssert => { s with pins := { s.pins with warmReset := true } }
  | .warmResetRelease => { s with pins := { s.pins with warmReset := false } }
  | .selectAssert => { s with pins := { s.pins with select := true } }
  | .selectRelease => { s with pins := { s.pins with select := false } }
  | .portResetAssert p => s.setPort p { s.port p with resetInput := true }
  | .portResetRelease p => s.setPort p { s.port p with resetInput := false }
  | .linkReadyArrival p => s.setPort p { s.port p with linkReady := true }
  | .linkReadyLoss p => s.setPort p { s.port p with linkReady := false }
  | _ => s

/-- Some of the part's lines: stream `k` becomes `st`, and the lines of `gone` meet the fate of R75. -/
def ReadAhead.turned (ra mid : ReadAhead) (k : StreamId) (st : Stream) (gone : List LineId) : Prop :=
  mid.nextFetch = ra.nextFetch ∧ mid.streams[k] = some st ∧
  (∀ j : StreamId, j ≠ k → mid.streams[j] = ra.streams[j]) ∧
  ∀ i : LineId, mid.lines[i] =
    if i ∈ gone then ra.lines[i].bind Line.released else ra.lines[i]

/-- The places of the records that these reports name. -/
def departed (rs : List Report) : List Nat :=
  rs.map fun x => x.1.place

/-- The status of a departing record's entry (R62). -/
def endStatus (d : Departure) (poison : Bool) : Status :=
  match d with
  | .succeeded => if poison then .storedPoisoned else .ok
  | .failed .retrySpent => .retrySpent
  | .failed .memFault => .memFault
  | .failed .timeout => .timeout
  | .withdrawn => .frozen

/-- A fence after all the departures of one event (R98, R99): each record of its horizon that left is counted
by its own outcome. -/
def FenceFields.afterAll (f : FenceFields) (rs : List Report) : FenceFields :=
  let held := rs.filter fun x => f.horizon.contains x.1.place
  { f with
    horizon := f.horizon.filter fun p => !(departed rs).contains p
    failedCount := f.failedCount + held.countP fun x => !decide (x.2 = .succeeded)
    poisonedSeen := f.poisonedSeen || held.any fun x => x.1.poison && !decide (x.2 = .withdrawn) }

/-- A PENDING fence whose whole horizon is among the departed records (R100). -/
def Entry.emptiedBy (rs : List Report) (e : Entry) : Bool :=
  match e.kind, e.state with
  | .fence f, .pending => f.horizon.all fun p => (departed rs).contains p
  | _, _ => false

/-- What a failed fetch of line `i` does (R85), in a state whose slot has become `slotted`: its attached reads
are DONE with the status and no data and join their list in attach order, the line is FREE, its owner stream
retired, and a top-up pass is made; nothing else changes. -/
def State.fetchFailure (s slotted u : State) (i : LineId) (l : Line) (status : Status) : Prop :=
  (∀ p, (u.port p).done = (s.port p).done ++
    l.attached.filter fun place => s.entryIs place fun e => decide (e.port = p)) ∧
  (∀ e ∈ s.tracker, e.place ∈ l.attached →
    { e with state := .done status [] } ∈ u.tracker) ∧
  (∀ e ∈ s.tracker, e.place ∉ l.attached → e ∈ u.tracker) ∧
  u.readAhead =
    (((match l.owner with
      | some k => s.readAhead.retire k
      | none => s.readAhead).setLine i none).topUp s.fetchEnv) ∧
  u = { slotted with
    tracker := u.tracker, readAhead := u.readAhead
    portA := { s.portA with done := u.portA.done }
    portB := { s.portB with done := u.portB.done } }

/-- The command is one of the window commands whose one argument is a window number (Table 11-6). -/
def windowCommand (n : Byte) : Instr → Prop
  | .getWindow m => m = n
  | .enableWindow m => m = n
  | .disableWindow m => m = n
  | .thawWindow m => m = n
  | _ => False

end Sys2Proof.Machine

open Sys2Proof Sys2Proof.Machine

/-! ## The step -/

/-- step takes the command at the front of the queue; on an empty queue it is one microsecond, by the model's
choice (log 7), with the effect R193 gives. -/
def Obligations.StepRunsFrontCommandOrTicks : Prop :=
  ∀ s : State,
    (∀ (c : Instr) (rest : List Instr), s.pending = c :: rest →
      step s = exec c { s with pending := rest }) ∧
    (s.pending = [] → step s = .next { s with
      startUp := { s.startUp with
        counter := if s.pins.powerOnReset then s.startUp.counter else s.startUp.counter + 1 } })

/-- What the end of an event does (R160, R179, R180). -/
def Obligations.EndOfEventSettles : Prop :=
  ∀ s : State, s.settle =
    { s with
      quiesce :=
        match s.quiesce with
        | .running => .running
        | _ =>
          if s.queue = [] ∧ s.tracker = [] ∧
              ∀ i : SlotId, (s.memPort.slots[i]).isBusy = false then .quiesced
          else .quiescing
      alertLine :=
        decide ((s.startUp.mask.log = true ∧ (s.log.records ≠ [] ∨ 0 < s.log.overflow)) ∨
          (s.startUp.mask.freeze = true ∧ ∃ n : WindowId, (s.table.windows[n]).state = .frozen) ∨
          (s.startUp.mask.port = true ∧
            (s.portA.state = .faulted ∨ s.portB.state = .faulted))) }

/-- While the power-on reset input is asserted, only its release is an event (R184). Every other command leaves
at most the level it gives to its own input: that the levels are followed is the model's reading (log 5). -/
def Obligations.PartHeldInPowerOnReset : Prop :=
  ∀ (i : Instr) (s : State), s.pins.powerOnReset = true → i ≠ .powerOnResetRelease →
    exec i s = .next (s.driven i)

/-- An event whose conditions do not hold is no event: an input that is already at the level, a load that has
ended, a slot, record, entry, line, stream, link or frame that is not where the event finds it (log 6). -/
def Obligations.NoEventWithoutItsConditions : Prop :=
  ∀ s : State,
    (s.pins.powerOnReset = true → exec .powerOnResetAssert s = .next s) ∧
    (s.pins.powerOnReset = false → exec .powerOnResetRelease s = .next s) ∧
    (s.pins.warmReset = true → exec .warmResetAssert s = .next s) ∧
    (s.pins.warmReset = false → exec .warmResetRelease s = .next s) ∧
    (s.pins.select = true → exec .selectAssert s = .next s) ∧
    (s.pins.select = false → exec .selectRelease s = .next s) ∧
    (s.maint.frame ≠ .answering → exec .lastBitOfResponseSent s = .next s) ∧
    (∀ code, (Instr.unknownCommand code).wellFormed = false →
      exec (.unknownCommand code) s = .next s) ∧
    (s.startUp.partState = .running → ∀ flash, exec (.loadEnd flash) s = .next s) ∧
    (∀ i : SlotId, (s.memPort.slots[i]).isBusy = false → exec (.slotDeadline i) s = .next s) ∧
    ((∀ head rest d, s.queue = head :: rest → head.state ≠ .backoff d) →
      exec .writeBackoffEnd s = .next s) ∧
    (∀ (p : PortId) (tag : Byte),
      (∀ e ∈ s.tracker, e.port = p → e.tag = tag → ∀ d, e.state ≠ .backoff d) →
      exec (.readBackoffEnd p tag) s = .next s) ∧
    (∀ i : LineId, (∀ l d, s.readAhead.lines[i] = some l → l.state ≠ .pending (some d)) →
      exec (.fetchBackoffEnd i) s = .next s) ∧
    (∀ k : StreamId, s.readAhead.streams[k] = none → exec (.idleExpiry k) s = .next s) ∧
    ∀ p : PortId,
      ((s.port p).resetInput = true → exec (.portResetAssert p) s = .next s) ∧
      ((s.port p).resetInput = false → exec (.portResetRelease p) s = .next s) ∧
      ((s.port p).linkReady = true → exec (.linkReadyArrival p) s = .next s) ∧
      ((s.port p).linkReady = false → exec (.linkReadyLoss p) s = .next s) ∧
      ((s.port p).state ≠ .active ∨ (s.port p).link ≠ .idle ∨ (s.port p).done = [] →
        exec (.completionBegin p) s = .next s) ∧
      ((∀ message, (s.port p).link ≠ .sendingCompletion message) →
        exec (.completionSent p) s = .next s) ∧
      ((∀ message, (s.port p).link ≠ .sendingCredit message) →
        exec (.creditSent p) s = .next s)

/-! ## Resets and start-up -/

/-- POWER_ON_RESET_ASSERT (R184): what the part holds then is the same whatever it held before.
POWER_ON_RESET_RELEASE (R184, R185, and each block's values after power-on). -/
def Obligations.PowerOnResetEndsAndStarts : Prop :=
  (∀ s : State, s.awake → ∃ t, exec .powerOnResetAssert s = .next t ∧
    t.pins = { s.pins with powerOnReset := true } ∧ t.alertLine = false ∧
    t.startUp.counter = 0 ∧
    t.startUp.flash = { select := false, out := [], bytesRead := 0 } ∧
    t.queue = [] ∧ t.tracker = [] ∧ t.log = { records := [], overflow := 0 } ∧
    (∀ p, (t.port p).resetInput = (s.port p).resetInput ∧
      (t.port p).linkReady = (s.port p).linkReady) ∧ t.pending = s.pending ∧
    ∀ s' : State, s'.pins = s.pins → (∀ p, (s'.port p).resetInput = (s.port p).resetInput ∧
        (s'.port p).linkReady = (s.port p).linkReady) →
      s'.pending = s.pending → s'.images = s.images → exec .powerOnResetAssert s' = .next t) ∧
  (∀ s : State, s.pins.powerOnReset = true → ∃ t, exec .powerOnResetRelease s = .next t ∧
    t.pins = { s.pins with powerOnReset := false } ∧
    t.startUp =
      { partState := .loading, loadResult := .inProgress, counter := 0,
        params := { responseTimeout := 500, backoff := 4, idle := 40, highWater := 24,
                    writeA := 16, requestA := 8 },
        mask := { log := true, freeze := true, port := true },
        flash := { select := true, out := [0x03, 0, 0, 0], bytesRead := 0 } } ∧
    (∀ n : WindowId, t.table.windows[n] = Window.zero) ∧ t.table.catchAll.mode = .pass ∧
    t.table.catchAll.dropCount = 0 ∧ t.queue = [] ∧ t.tracker = [] ∧
    (∀ k : StreamId, t.readAhead.streams[k] = none) ∧
    (∀ i : LineId, t.readAhead.lines[i] = none) ∧
    (∀ i : SlotId, t.memPort.slots[i] = .free) ∧ t.memPort.passedOver = 0 ∧
    (∀ p, t.port p =
      { resetInput := (s.port p).resetInput, linkReady := (s.port p).linkReady, state := .down,
        writeHeld := 0, writeOwed := 16, requestHeld := 0, requestOwed := 8, dropFlag := false,
        done := [], link := .idle, lastSent := .completion }) ∧
    t.log = { records := [], overflow := 0 } ∧ t.alertLine = false ∧
    t.maint.frame = (if s.pins.select then .spent else .idle) ∧ t.quiesce = .running ∧
    t.pending = s.pending)

/-- LOAD_END when every check passes (R188), and when one fails: the fallback (R189). -/
def Obligations.LoadEndConfiguresPart : Prop :=
  (∀ (s : State) (flash : List Byte) (image : Image), s.awake → s.startUp.partState = .loading →
     checkImage flash = .ok image →
     ∃ table : WindowTable,
       (∀ n : WindowId, table.windows[n] = image.windows.getD n Window.zero) ∧
       table.catchAll = { mode := image.mode, retry := image.retry, dropCount := 0 } ∧
       exec (.loadEnd flash) s = .next ({ s with
         startUp :=
           { s.startUp with
             partState := .running, loadResult := .ok, params := image.params,
             mask := image.mask,
             flash := { s.startUp.flash with select := false, bytesRead := bytesRead flash } }
         table := table
         portA := ({ s.portA with
           writeHeld := 0, writeOwed := image.params.writeA, requestHeld := 0,
           requestOwed := image.params.requestA } : Port).comeUp true s.pins.warmReset
         portB := ({ s.portB with
           writeHeld := 0, writeOwed := 32 - image.params.writeA, requestHeld := 0,
           requestOwed := 16 - image.params.requestA } : Port).comeUp true s.pins.warmReset }
         : State).settle) ∧
  ∀ (s : State) (flash : List Byte) (cause : LoadCause), s.awake →
    s.startUp.partState = .loading → checkImage flash = .error cause →
    ∃ table : WindowTable,
      (∀ n : WindowId, table.windows[n] = Window.zero) ∧
      table.catchAll = { mode := .pass, retry := .eight, dropCount := 0 } ∧
      exec (.loadEnd flash) s = .next ({ s with
        startUp :=
          { s.startUp with
            partState := .running, loadResult := .failed cause, params := Params.default,
            mask := { log := true, freeze := true, port := true },
            flash := { s.startUp.flash with select := false, bytesRead := bytesRead flash } }
        table := table
        log := s.log.append { time := s.startUp.counter, event := .configFallback cause }
        portA := ({ s.portA with
          writeHeld := 0, writeOwed := 16, requestHeld := 0, requestOwed := 8 } : Port).comeUp
            true s.pins.warmReset
        portB := ({ s.portB with
          writeHeld := 0, writeOwed := 16, requestHeld := 0, requestOwed := 8 } : Port).comeUp
            true s.pins.warmReset } : State).settle

/-- The checks of a load in their order (R186), and the parts in theirs (R187). -/
def Obligations.LoadChecksInOrder : Prop :=
  ∀ flash : List Byte,
    let marker := (List.range 4).map fun i => flash.getD i 0xFF
    let count := (flash.getD 5 0xFF).toNat
    let covered := (List.range (16 + 18 * count)).map fun i => flash.getD i 0xFF
    let word := flash.getD (16 + 18 * count) 0xFF ++ flash.getD (17 + 18 * count) 0xFF
    let header := marker = [0x4F, 0x53, 0x48, 0x4C] ∧ flash.getD 4 0xFF = 1 ∧ count ≤ 8
    (marker = [0xFF, 0xFF, 0xFF, 0xFF] → checkImage flash = .error .noFlash) ∧
    (marker ≠ [0xFF, 0xFF, 0xFF, 0xFF] → marker ≠ [0x4F, 0x53, 0x48, 0x4C] →
      checkImage flash = .error .badMarker) ∧
    (marker = [0x4F, 0x53, 0x48, 0x4C] → flash.getD 4 0xFF ≠ 1 →
      checkImage flash = .error .badVersion) ∧
    (marker = [0x4F, 0x53, 0x48, 0x4C] → flash.getD 4 0xFF = 1 → 8 < count →
      checkImage flash = .error .badCount) ∧
    (header → checkWord covered ≠ word → checkImage flash = .error .badCheck) ∧
    (header → checkWord covered = word →
      (paramsOf (paramBytesAt covered 6) = none ∨ maskOf (byteAt covered 13) = none →
        checkImage flash = .error (.badField .parameterBlock)) ∧
      ∀ params mask, paramsOf (paramBytesAt covered 6) = some params →
        maskOf (byteAt covered 13) = some mask →
        (modeOf (byteAt covered 14) = none ∨ retryOf (byteAt covered 15) = none →
          checkImage flash = .error (.badField .catchAll)) ∧
        ∀ mode retry, modeOf (byteAt covered 14) = some mode →
          retryOf (byteAt covered 15) = some retry →
          (∀ n : WindowId, n.val < count → imageWindow covered (16 + 18 * n.val) = none →
            (∀ m : WindowId, m < n → (imageWindow covered (16 + 18 * m.val)).isSome) →
            checkImage flash = .error (.badField (.window n))) ∧
          ∀ windows : List Window, windows.length = count →
            (∀ n : Nat, n < count →
              imageWindow covered (16 + 18 * n) = windows[n]?) →
            checkImage flash = .ok
              { params := params, mask := mask, mode := mode, retry := retry,
                windows := windows })

/-- WARM_RESET_ASSERT (R191, Table 10-4; R43, R67, R93, R128, R151, R164, R169, R182). -/
def Obligations.WarmResetDiscardsWork : Prop :=
  ∀ s : State, s.awake → s.pins.warmReset = false →
    ∃ u : State, exec .warmResetAssert s = .next u.settle ∧
      u.queue = [] ∧ u.tracker = [] ∧ u.quiesce = .running ∧
      (∀ k : StreamId, u.readAhead.streams[k] = none) ∧
      (∀ i : LineId, u.readAhead.lines[i] = none) ∧
      (∀ i : SlotId, u.memPort.slots[i] = .free) ∧ u.memPort.passedOver = 0 ∧
      (∀ p, u.port p = (s.port p).cutOff .down s.startUp.params p 0) ∧
      u.maint.frame = (if s.maint.frame = .idle then .idle else .spent) ∧
      u.log = (if s.queue = [] ∧ s.tracker = [] then s.log
        else s.log.append
          { time := s.startUp.counter,
            event := .warmResetLoss s.queue.length s.tracker.length }) ∧
      u = { s with
        pins := { s.pins with warmReset := true }
        queue := u.queue, tracker := u.tracker, nextPlace := u.nextPlace
        readAhead := u.readAhead
        memPort := { u.memPort with lastRequest := s.memPort.lastRequest }
        portA := u.portA, portB := u.portB, log := u.log, maint := u.maint
        quiesce := u.quiesce }

/-! ## Port inputs -/

/-- PORT_RESET_ASSERT and LINK_READY_LOSS (R148, R149, Table 7-2); PORT_RESET_RELEASE, LINK_READY_ARRIVAL and
WARM_RESET_RELEASE (R131, R191). -/
def Obligations.PortInputsMovePort : Prop :=
  (∀ (s : State) (p : PortId), s.awake →
    ((s.port p).resetInput = false →
      exec (.portResetAssert p) s = .next (
        (if (s.port p).state = .down then s else s.cutOff p .down).setPort p
          { (if (s.port p).state = .down then s else s.cutOff p .down).port p with
            resetInput := true }).settle) ∧
    ((s.port p).linkReady = true →
      exec (.linkReadyLoss p) s = .next (
        (if (s.port p).state = .down then s else s.cutOff p .down).setPort p
          { (if (s.port p).state = .down then s else s.cutOff p .down).port p with
            linkReady := false }).settle)) ∧
  (∀ (s : State) (p : PortId), s.awake →
    ((s.port p).resetInput = true →
      exec (.portResetRelease p) s = .next (s.setPort p
        (({ s.port p with resetInput := false } : Port).comeUp s.isRunning
          s.pins.warmReset)).settle) ∧
    ((s.port p).linkReady = false →
      exec (.linkReadyArrival p) s = .next (s.setPort p
        (({ s.port p with linkReady := true } : Port).comeUp s.isRunning
          s.pins.warmReset)).settle) ∧
    (s.pins.warmReset = true → exec .warmResetRelease s = .next ({ s with
      pins := { s.pins with warmReset := false }
      portA := s.portA.comeUp s.isRunning false
      portB := s.portB.comeUp s.isRunning false } : State).settle))

/-- What discarding a port's work does in the pool (R90, R91): the discarded reads leave the attached-read lists,
which keep the order of the rest; the port's streams are retired; a PENDING line then ownerless or stale with
an empty list is cancelled; and a top-up pass follows. So no stream of the port is ACTIVE, no discarded read
is attached, and the other port keeps its streams and its VALID lines. In the slots it takes the owner from
those of discarded reads, which stay BUSY (R129). -/
def Obligations.PortDiscardSparesOtherPort : Prop :=
  (∀ (s : State) (p : PortId) (gone : List Nat), s.poolSound = true →
    let ra := s.readAhead.discardPort s.fetchEnv p gone
    let cutOff (l : Line) : Prop :=
      ∃ k st, l.owner = some k ∧ s.readAhead.streams[k] = some st ∧ st.port = p
    (∃ mid : ReadAhead, ra = mid.topUp s.fetchEnv ∧ mid.nextFetch = s.readAhead.nextFetch ∧
      (∀ k : StreamId, (s.readAhead.streams[k] = none → mid.streams[k] = none) ∧
        ∀ st, s.readAhead.streams[k] = some st →
          (st.port = p → mid.streams[k] = none) ∧ (st.port ≠ p → mid.streams[k] = some st)) ∧
      ∀ i : LineId, (s.readAhead.lines[i] = none → mid.lines[i] = none) ∧
        ∀ l, s.readAhead.lines[i] = some l →
          let kept := { l with attached := l.attached.filter fun e => !gone.contains e }
          (cutOff l → mid.lines[i] =
            (match l.state with
              | .valid _ _ => none
              | .pending _ =>
                if kept.attached = [] then none else some { kept with owner := none }
              | .fetching => some { kept with owner := none })) ∧
          (¬ cutOff l → mid.lines[i] =
            (match l.state with
              | .valid _ _ => some l
              | .pending _ =>
                if (l.owner = none ∨ l.stale = true) ∧ kept.attached = [] then none
                else some kept
              | .fetching => some kept))) ∧
    (∀ (k : StreamId) (st : Stream), ra.streams[k] = some st → st.port ≠ p) ∧
    (∀ (i : LineId) (l : Line), ra.lines[i] = some l → ∀ e ∈ l.attached, e ∉ gone) ∧
    (∀ (k : StreamId) (st : Stream), s.readAhead.streams[k] = some st → st.port ≠ p →
      ∃ st', ra.streams[k] = some st' ∧ st'.port = st.port ∧ st'.window = st.window ∧
        st'.depth = st.depth ∧ st'.lastUse = st.lastUse ∧ st.owned <+: st'.owned) ∧
    (∀ (i : LineId) (l : Line) (k : StreamId) (st : Stream), s.readAhead.lines[i] = some l →
      l.isValid = true → l.owner = some k → s.readAhead.streams[k] = some st → st.port ≠ p →
      ra.lines[i] = some l)) ∧
  ∀ gone : List Nat,
    (∀ (place : Nat) (line : Addr) (d : Timer),
      (Slot.busy (.demand (some place)) line d).withoutEntries gone =
        if place ∈ gone then .busy (.demand none) line d
        else .busy (.demand (some place)) line d) ∧
    ∀ slot : Slot, (∀ place line d, slot ≠ .busy (.demand (some place)) line d) →
      slot.withoutEntries gone = slot

/-! ## Requests -/

/-- The form check's order (R135). -/
def Obligations.FormCheckInOrder : Prop :=
  Request.formError .unknown = some .badKind ∧
  (∀ tag scope purge, Request.formError (.fence tag scope purge) = none) ∧
  (∀ (tag : Byte) (a : Addr) (n : Byte),
    (n.toNat = 0 ∨ 64 < n.toNat → Request.formError (.read tag a n) = some .badLength) ∧
    (1 ≤ n.toNat → n.toNat ≤ 64 → 64 < a.toNat % 64 + n.toNat →
      Request.formError (.read tag a n) = some .lineCrossing) ∧
    (1 ≤ n.toNat → a.toNat % 64 + n.toNat ≤ 64 → Request.formError (.read tag a n) = none)) ∧
  (∀ (ack : Bool) (tag : Byte) (a : Addr) (n : Byte) (data : List LinkByte),
    (n.toNat = 0 ∨ 64 < n.toNat ∨ data.length ≠ n.toNat →
      Request.formError (.write ack tag a n data) = some .badLength) ∧
    (1 ≤ n.toNat → n.toNat ≤ 64 → data.length = n.toNat → 64 < a.toNat % 64 + n.toNat →
      Request.formError (.write ack tag a n data) = some .lineCrossing) ∧
    (1 ≤ n.toNat → data.length = n.toNat → a.toNat % 64 + n.toNat ≤ 64 →
      Request.formError (.write ack tag a n data) = none))

/-- A request at a port that is not ACTIVE is ignored (R132); one that fails one of steps 1 to 3 at an ACTIVE
port is a protocol error (R134, R136, R137, R147); a request of no known kind fails the first. The credits a request needs (R136), and the
tag and the length its kind carries (R153). -/
def Obligations.RequestsIgnoredOrProtocolErrors : Prop :=
  (∀ (s : State) (p : PortId), s.awake →
    (∀ (i : Instr) (r : Request), requestOf i = some (p, r) →
      ((s.port p).state ≠ .active → exec i s = .next s) ∧
      ∀ cause : ProtocolCause, (s.port p).state = .active → s.refusal p r = some cause →
        exec i s = .next
          ({ s.cutOff p .faulted with
            log := s.log.append
              { time := s.startUp.counter,
                event := .portProtocol p cause r.tag? r.length? } } : State).settle) ∧
    (∀ message : List LinkByte, (Instr.requestOfNoKnownKind p message).wellFormed = true →
      (s.port p).state = .active →
      exec (.requestOfNoKnownKind p message) s = .next
        ({ s.cutOff p .faulted with
          log := s.log.append
            { time := s.startUp.counter,
              event := .portProtocol p .badKind none none } } : State).settle)) ∧
  (∀ (tag : Byte) (a : Addr) (n : Byte),
    let r := Request.read tag a n
    r.needsWrite = false ∧ r.needsRequest = true ∧ r.tag? = some tag ∧ r.length? = some n) ∧
  (∀ (ack : Bool) (tag : Byte) (a : Addr) (n : Byte) (data : List LinkByte),
    let r := Request.write ack tag a n data
    r.needsWrite = true ∧ r.needsRequest = ack ∧ r.tag? = (if ack then some tag else none) ∧
      r.length? = some n) ∧
  (∀ (tag : Byte) (scope : Scope) (purge : Bool),
    let r := Request.fence tag scope purge
    r.needsWrite = false ∧ r.needsRequest = true ∧ r.tag? = some tag ∧ r.length? = none) ∧
  Request.tag? .unknown = none ∧ Request.length? .unknown = none

/-- An admitted READ outside the read-ahead unit's windows (R9, R49 to R52): UNMAPPED under a REJECT catch-all,
else a demand read with its horizon. -/
def Obligations.ReadBecomesEntry : Prop :=
  ∀ (s : State) (p : PortId) (rest : List LinkByte) (tag : Byte) (a : Addr) (n : Byte),
    s.readsWeighed = true → parseRead rest = .read tag a n →
    s.admits (.requestRead p rest) p (.read tag a n) →
    let spent := s.setPort p ((s.port p).spent (.read tag a n))
    (s.table.matching a = .catchAll → s.table.catchAll.mode = .reject →
      exec (.requestRead p rest) s = .next
        (spent.joinedDone (s.readEntry p tag a n.toNat [] (.done .unmapped []))).settle) ∧
    ((s.table.matching a = .catchAll ∧ s.table.catchAll.mode = .pass) ∨
        (∃ w, s.table.matching a = .window w ∧ (s.table.windows[w]).fields.depth = 0) →
      exec (.requestRead p rest) s = .next
        (spent.joined (s.readEntry p tag a n.toNat s.queuedPlaces
          (s.firstState (s.readEntry p tag a n.toNat s.queuedPlaces .orderWait)))).settle)

/-- An admitted READ in a window of depth above 0: hit, attach or miss (R61, R72 to R74, R78, R79). -/
def Obligations.ReadMeetsPool : Prop :=
  ∀ (s : State) (p : PortId) (rest : List LinkByte) (tag : Byte) (a : Addr) (n : Byte)
    (w : WindowId), s.readsWeighed = true → parseRead rest = .read tag a n →
    s.admits (.requestRead p rest) p (.read tag a n) → s.table.matching a = .window w →
    0 < (s.table.windows[w]).fields.depth →
    let spent := s.setPort p ((s.port p).spent (.read tag a n))
    let f := (s.table.windows[w]).fields
    let target := lineOf (f.translate a)
    (∀ (i : LineId) (l : Line) (poison : Bool) (data : LineData),
      s.readAhead.lookup p w target = .hit i → s.readAhead.lines[i] = some l →
      l.state = .valid poison data →
      exec (.requestRead p rest) s = .next
        ({ spent.joinedDone (s.readEntry p tag a n.toNat []
            (.done (if poison then .poisoned else .ok)
              (spanData f.lane (a.toNat % 64) n.toNat data))) with
          readAhead := s.readAhead.use s.fetchEnv i } : State).settle) ∧
    (∀ (i : LineId) (l : Line), s.readAhead.lookup p w target = .attach i →
      s.readAhead.lines[i] = some l →
      exec (.requestRead p rest) s = .next
        ({ spent.joined (s.readEntry p tag a n.toNat [] .attached) with
          readAhead :=
            (s.readAhead.setLine i (some { l with
              attached := l.attached ++ [s.nextPlace] })).use s.fetchEnv i } : State).settle) ∧
    (s.readAhead.lookup p w target = .miss →
      exec (.requestRead p rest) s = .next
        ({ spent.joined (s.readEntry p tag a n.toNat s.queuedPlaces
            (s.firstState (s.readEntry p tag a n.toNat s.queuedPlaces .orderWait))) with
          readAhead := s.readAhead.miss s.fetchEnv p w target } : State).settle)

/-- The lookup's answer (R71). -/
def Obligations.LookupPrefersValidThenOldest : Prop :=
  ∀ (ra : ReadAhead) (p : PortId) (w : WindowId) (target : Addr),
    let considered (i : LineId) (l : Line) : Prop :=
      ra.lines[i] = some l ∧ l.target = target ∧ ∃ k st, l.owner = some k ∧
        ra.streams[k] = some st ∧ st.port = p ∧ st.window = w
    (∀ i, ra.lookup p w target = .hit i →
      ∃ l, considered i l ∧ l.isValid = true ∧
        ∀ j m, considered j m → m.isValid = true → l.order ≤ m.order) ∧
    (∀ i, ra.lookup p w target = .attach i →
      ∃ l, considered i l ∧ l.isValid = false ∧ l.stale = false ∧
        (∀ j m, considered j m → m.isValid = false) ∧
        ∀ j m, considered j m → m.stale = false → l.order ≤ m.order) ∧
    (ra.lookup p w target = .miss →
      ∀ j m, considered j m → m.isValid = false ∧ m.stale = true) ∧
    ∀ l : Line, l.isValid = true ↔ ∃ poison data, l.state = .valid poison data

/-- The unit's side of a hit or attach (R74): the older lines are released, the stream's last use is now, and a
top-up pass follows. -/
def Obligations.HitAdvancesStream : Prop :=
  ∀ (s : State) (i : LineId) (l : Line) (k : StreamId) (st : Stream), s.poolSound = true →
    s.readAhead.lines[i] = some l → l.owner = some k → s.readAhead.streams[k] = some st →
    ∃ older kept mid, st.owned = older ++ i :: kept ∧
      s.readAhead.turned mid k { st with owned := i :: kept, lastUse := s.startUp.counter } older ∧
      s.readAhead.use s.fetchEnv i = mid.topUp s.fetchEnv ∧
      ∃ added st', (s.readAhead.use s.fetchEnv i).streams[k] = some st' ∧
        st'.owned = i :: kept ++ added ∧ st'.lastUse = s.startUp.counter ∧
        st'.port = st.port ∧ st'.window = st.window ∧ st'.depth = st.depth ∧
        st'.nextLine = st.nextLine + 64 * added.length

/-- The unit's side of a miss (R78, R79): the most recently used stream of the port and window whose next line
is the missed line is re-aimed past it; without one, the lowest-numbered FREE stream, or else the one with the
oldest last use, retired first, is allocated. A top-up pass follows. -/
def Obligations.MissReAimsOrAllocates : Prop :=
  ∀ (s : State) (p : PortId) (w : WindowId) (target : Addr),
    let ra := s.readAhead
    let missed := ra.miss s.fetchEnv p w target
    let age (st : Stream) : Nat := (s.startUp.counter - st.lastUse).toNat
    let continues (k : StreamId) (st : Stream) : Prop :=
      ra.streams[k] = some st ∧ st.port = p ∧ st.window = w ∧ st.nextLine = target.toNat
    let fresh : Stream :=
      { port := p, window := w, depth := (s.table.windows[w]).fields.depth,
        nextLine := target.toNat + 64, owned := [], lastUse := s.startUp.counter }
    (∀ k st, continues k st →
      (∀ j other, continues j other → age st < age other ∨ (age st = age other ∧ k ≤ j)) →
      ∃ mid, missed = mid.topUp s.fetchEnv ∧
        ra.turned mid k { st with
          owned := [], nextLine := target.toNat + 64, lastUse := s.startUp.counter } st.owned) ∧
    ((∀ k st, ¬ continues k st) →
      (∀ k : StreamId, ra.streams[k] = none → (∀ j : StreamId, j < k → ra.streams[j] ≠ none) →
        ∃ mid, missed = mid.topUp s.fetchEnv ∧ ra.turned mid k fresh []) ∧
      ((∀ j : StreamId, ra.streams[j] ≠ none) → ∀ k st, ra.streams[k] = some st →
        (∀ (j : StreamId) (other : Stream), ra.streams[j] = some other →
          age other < age st ∨ (age other = age st ∧ k ≤ j)) →
        ∃ mid, missed = mid.topUp s.fetchEnv ∧ ra.turned mid k fresh st.owned))

/-- A top-up pass (R76, R77): creations one at a time until no line is FREE or no stream is short, each for the
short stream with the most recent last use. That the line taken is the lowest-numbered FREE one is the model's
choice (log 10). -/
def Obligations.TopUpFeedsLatestReader : Prop :=
  ∀ (s : State) (ra : ReadAhead),
    let env := s.fetchEnv
    let short (k : StreamId) (st : Stream) : Prop :=
      ra.streams[k] = some st ∧ st.owned.length < st.depth ∧
        (s.table.windows[st.window]).fields.targetBase.toNat ≤ st.nextLine ∧
        st.nextLine < (s.table.windows[st.window]).fields.targetBase.toNat +
          4096 * 2 ^ (s.table.windows[st.window]).fields.sizeCode
    let age (st : Stream) : Nat := (s.startUp.counter - st.lastUse).toNat
    ((∀ i : LineId, ra.lines[i] ≠ none) → ra.topUp env = ra) ∧
    ((∀ k st, ¬ short k st) → ra.topUp env = ra) ∧
    ∀ (k : StreamId) (st : Stream) (i : LineId), short k st →
      (∀ j other, short j other → age st < age other ∨ (age st = age other ∧ k ≤ j)) →
      ra.lines[i] = none → (∀ j : LineId, j < i → ra.lines[j] ≠ none) →
      ra.topUp env = ({
        streams := ra.streams.set k (some { st with
          owned := st.owned ++ [i], nextLine := st.nextLine + 64 })
        lines := ra.lines.set i (some
          { state := .pending none, stale := false, target := BitVec.ofNat 40 st.nextLine,
            owner := some k, retry := (s.table.windows[st.window]).fields.retry, waitCount := 0,
            horizon := s.queuedPlaces, order := ra.nextFetch, attached := [] })
        nextFetch := ra.nextFetch + 1 } : ReadAhead).topUp env

/-- Invalidation by an accepted write (R86): the owner of each line of the written target line is retired, the
line is freed, cancelled or marked stale, and a top-up pass follows. -/
def Obligations.WriteInvalidatesPoolLines : Prop :=
  ∀ (s : State) (env : FetchEnv) (written : Addr), s.poolSound = true →
    let ra := s.readAhead
    let struck (k : StreamId) : Prop := ∃ (i : LineId) (l : Line), ra.lines[i] = some l ∧
      l.target = written ∧ l.owner = some k
    ∃ mid : ReadAhead, ra.invalidate env written = mid.topUp env ∧
      mid.nextFetch = ra.nextFetch ∧
      (∀ k : StreamId, (struck k → mid.streams[k] = none) ∧
        (¬ struck k → mid.streams[k] = ra.streams[k])) ∧
      ∀ i : LineId, (ra.lines[i] = none → mid.lines[i] = none) ∧
        ∀ l, ra.lines[i] = some l →
          (l.target = written → mid.lines[i] =
            (match l.state with
              | .valid _ _ => none
              | .pending _ =>
                if l.attached = [] then none else some { l with stale := true, owner := none }
              | .fetching => some { l with stale := true, owner := none })) ∧
          (l.target ≠ written → ∀ k, l.owner = some k → struck k →
            mid.lines[i] = l.released) ∧
          (l.target ≠ written → (∀ k, l.owner = some k → ¬ struck k) → mid.lines[i] = some l)

/-- An admitted WRITE that its matched record accepts (R20, R23 to R26, R7). -/
def Obligations.WriteJoinsQueue : Prop :=
  ∀ (s : State) (p : PortId) (rest : List LinkByte) (ack : Bool) (tag : Byte) (a : Addr)
    (n : Byte) (data : List LinkByte), parseWrite rest = .write ack tag a n data →
    s.admits (.requestWrite p rest) p (.write ack tag a n data) →
    s.table.writeRefusal (s.table.matching a) = none →
    let ref := s.table.matching a
    let f := s.table.policy ref
    ∃ r : WriteRecord,
      r.place = s.nextPlace ∧ r.port = p ∧ r.window = ref ∧ r.line = lineOf (f.translate a) ∧
      r.mask = spanMask f.lane (a.toNat % 64) n.toNat ∧
      (∀ i < n.toNat, lineByte r.data (laneMap f.lane (a.toNat % 64 + i)) =
        (data.map LinkByte.data).getD i 0) ∧
      r.poison = (data.any fun b => !goodParity b) ∧
      r.ackTag = (if ack then some tag else none) ∧
      r.link = (if ack then some s.nextPlace else none) ∧ r.retry = f.retry ∧
      r.fault = f.fault ∧ r.waitCount = 0 ∧ r.state = .queued ∧
      exec (.requestWrite p rest) s = .next ({
        s.setPort p ((s.port p).spent (.write ack tag a n data)) with
        queue := s.queue ++ [r]
        tracker := s.tracker ++
          (if ack then
            [{ place := s.nextPlace, port := p, tag := tag, kind := .ackedWrite,
               state := .queued }]
          else [])
        nextPlace := s.nextPlace + 1
        images := s.images + 1
        log :=
          if r.poison = true ∧ ack = false then
            s.log.append { time := s.startUp.counter,
                           event := .writeParity p ref r.line r.length none }
          else s.log
        readAhead := s.readAhead.invalidate
          { s.fetchEnv with queued := s.queuedPlaces ++ [s.nextPlace] } r.line }
        : State).settle

/-- An admitted WRITE that its matched record turns away (R9 to R11, Table 1-3). -/
def Obligations.WriteTurnedAway : Prop :=
  (∀ (s : State) (p : PortId) (rest : List LinkByte) (ack : Bool) (tag : Byte) (a : Addr)
    (n : Byte) (data : List LinkByte) (status : Status), s.orderSound = true →
    parseWrite rest = .write ack tag a n data →
    s.admits (.requestWrite p rest) p (.write ack tag a n data) →
    s.table.writeRefusal (s.table.matching a) = some status →
    let spent := (s.port p).spent (.write ack tag a n data)
    exec (.requestWrite p rest) s = .next
      (if ack then
        ((s.setPort p { spent with writeOwed := spent.writeOwed + 1 }).joinedDone
          { place := s.nextPlace, port := p, tag := tag, kind := .ackedWrite,
            state := .done status [] }).settle
      else
        ({ s with table := s.table.drop (s.table.matching a) }.setPort p
          { spent with writeOwed := spent.writeOwed + 1, dropFlag := true }).settle)) ∧
  (∀ t : WindowTable,
    t.writeRefusal .catchAll = (if t.catchAll.mode = .reject then some .unmapped else none) ∧
    (t.drop .catchAll).catchAll = { t.catchAll with
      dropCount := min (t.catchAll.dropCount + 1) 65535 } ∧
    (t.drop .catchAll).windows = t.windows ∧
    ∀ n : WindowId,
      ((t.windows[n]).state = .frozen → t.writeRefusal (.window n) = some .frozen) ∧
      ((t.windows[n]).state = .enabled → (t.windows[n]).fields.access = .readOnly →
        t.writeRefusal (.window n) = some .readOnly) ∧
      ((t.windows[n]).state = .enabled → (t.windows[n]).fields.access = .writable →
        t.writeRefusal (.window n) = none) ∧
      (t.drop (.window n)).windows[n] = { t.windows[n] with
        dropCount := min ((t.windows[n]).dropCount + 1) 65535 } ∧
      (t.drop (.window n)).catchAll = t.catchAll ∧
      ∀ m : WindowId, m ≠ n → (t.drop (.window n)).windows[m] = t.windows[m])

/-- An admitted FENCE (R95, R97, R100, R101, R102). -/
def Obligations.FenceTakesHorizonAndDropFlag : Prop :=
  ∀ (s : State) (p : PortId) (rest : List LinkByte) (tag : Byte) (scope : Scope)
    (purge : Bool), s.orderSound = true → parseFence rest = .fence tag scope purge →
    s.admits (.requestFence p rest) p (.fence tag scope purge) →
    let horizon := (s.queue.filter fun r =>
      match scope with
      | .all => true
      | .port => decide (r.port = p)).map WriteRecord.place
    let flag := (s.port p).dropFlag
    let fields : FenceFields :=
      { scope := scope, purge := purge, horizon := horizon, failedCount := 0,
        droppedSeen := flag, poisonedSeen := false }
    let spent := s.setPort p
      { (s.port p).spent (.fence tag scope purge) with dropFlag := false }
    (horizon ≠ [] → exec (.requestFence p rest) s = .next
      (spent.joined { place := s.nextPlace, port := p, tag := tag, kind := .fence fields,
                      state := .pending }).settle) ∧
    (horizon = [] → exec (.requestFence p rest) s = .next
      ({ spent.joinedDone
          { place := s.nextPlace, port := p, tag := tag, kind := .fence fields,
            state := .done (if flag then .faulted else .ok) [] } with
        readAhead := if purge then s.readAhead.purge s.fetchEnv else s.readAhead }
        : State).settle)

/-! ## Windows and lanes -/

/-- The lowest-numbered ENABLED or FROZEN window that holds the address matches, else the catch-all (R4). The
translation (R6): the target address, its line and its offset; a line inside a valid window lies wholly
inside it (R3). -/
def Obligations.WindowMatchesAndTranslates : Prop :=
  (∀ (t : WindowTable) (a : Addr),
    let holds (n : WindowId) : Prop :=
      (t.windows[n]).state ≠ WindowState.disabled ∧
        (t.windows[n]).fields.base.toNat ≤ a.toNat ∧
        a.toNat < (t.windows[n]).fields.base.toNat +
          4096 * 2 ^ (t.windows[n]).fields.sizeCode
    (∀ n, t.matching a = .window n ↔ (holds n ∧ ∀ m, m < n → ¬ holds m)) ∧
    (t.matching a = .catchAll ↔ ∀ n, ¬ holds n) ∧ (t.policy .catchAll).translate a = a) ∧
  ∀ (f : WindowFields) (a : Addr), f.valid = true → f.covers a = true →
    (f.translate a).toNat = f.targetBase.toNat + (a.toNat - f.base.toNat) ∧
    (f.translate a).toNat < f.targetBase.toNat + 4096 * 2 ^ f.sizeCode ∧
    (f.translate a).toNat % 64 = a.toNat % 64 ∧
    (lineOf (f.translate a)).toNat = (f.translate a).toNat - a.toNat % 64 ∧
    ∀ b : Addr, b.toNat / 64 = a.toNat / 64 → f.covers b = true

/-- The lane orders (R6 to R8): the table of Section 1.4, each map undoing itself within the line; a mask has a
flag at the mapped position of each byte of the span and nowhere else; and a read of a written span through
the same lane order returns the bytes in the order written. -/
def Obligations.LaneOrderRoundTrip : Prop :=
  (∀ p : Nat, laneMap .asIs p = p ∧
    laneMap .swap32 p = 4 * (p / 4) + (3 - p % 4) ∧
    laneMap .swap64 p = 8 * (p / 8) + (7 - p % 8)) ∧
  (∀ (lane : LaneOrder) (offset length : Nat) (q : Fin 64), offset + length ≤ 64 →
    ((spanMask lane offset length)[q] = true ↔
      ∃ i, i < length ∧ laneMap lane (offset + i) = q.val)) ∧
  (∀ (lane : LaneOrder) (p : Nat), p < 64 →
    laneMap lane p < 64 ∧ laneMap lane (laneMap lane p) = p) ∧
  (∀ (lane : LaneOrder) (offset length : Nat), offset + length ≤ 64 →
    maskCount (spanMask lane offset length) = length) ∧
  (∀ (lane : LaneOrder) (offset : Nat) (data : List Byte) (image : Nat),
    offset + data.length ≤ 64 →
    spanData lane offset data.length (writeImage lane offset data image) = data)

/-! ## The memory port -/

/-- What each block presents (R122: R27, R53, R81), and when a read (R51) or a line (R80) is eligible. -/
def Obligations.CandidatesPresented : Prop :=
  ∀ s : State,
    (∀ head, s.headCandidate = some head ↔
      (∃ rest, s.queue = head :: rest) ∧ head.state = .queued ∧
        ∀ i : SlotId, (s.memPort.slots[i]).holdsWrite = false) ∧
    (∀ e r, s.demandCandidate = some (e, r) ↔
      ∃ before after, s.tracker = before ++ e :: after ∧ e.kind = .read r ∧ e.state = .ready ∧
        ∀ x ∈ before, ∀ y, ¬ (x.kind = .read y ∧ x.state = .ready)) ∧
    (∀ i, s.readAhead.candidate s.queue s.memPort.orphanedWriteLines = some i →
      ∃ l, s.readAhead.lines[i] = some l ∧
        lineEligible s.queue s.memPort.orphanedWriteLines l = true ∧
        ∀ (j : LineId) (m : Line), s.readAhead.lines[j] = some m →
          lineEligible s.queue s.memPort.orphanedWriteLines m = true → l.order ≤ m.order) ∧
    (s.readAhead.candidate s.queue s.memPort.orphanedWriteLines = none ↔
      ∀ (j : LineId) (m : Line), s.readAhead.lines[j] = some m →
        lineEligible s.queue s.memPort.orphanedWriteLines m = false) ∧
    (∀ m : Line, lineEligible s.queue s.memPort.orphanedWriteLines m = true ↔
      m.state = .pending none ∧
      (∀ w ∈ s.queue, w.place ∈ m.horizon → w.line ≠ m.target) ∧
      ∀ (i : SlotId) (line : Addr), s.memPort.slots[i] = .orphaned .write line →
        line ≠ m.target) ∧
    (∀ (p : PortId) (r : ReadFields),
      readEligible s.queue s.memPort.orphanedWriteLines p r = true ↔
        (∀ w ∈ s.queue, w.place ∈ r.horizon → w.line ≠ r.line) ∧
        (∀ (i : SlotId) (line : Addr), s.memPort.slots[i] = .orphaned .write line →
          line ≠ r.line) ∧
        (r.order = .strict → ∀ w ∈ s.queue, w.place ∈ r.horizon → w.port ≠ p)) ∧
    (∀ e : Entry, weighEntry s.queue s.memPort.orphanedWriteLines e =
      (match e.kind with
        | .read r =>
          if e.state = .orderWait ∨ e.state = .ready then
            { e with state :=
                if readEligible s.queue s.memPort.orphanedWriteLines e.port r then .ready
                else .orderWait }
          else e
        | .ackedWrite => e
        | .fence _ => e))

/-- The arbiter's five steps (R123, R125), with at least one slot FREE; and what the
counts of slots count (R108). -/
def Obligations.ArbiterChoosesInOrder : Prop :=
  (∀ s : State,
    (∀ head, s.headCandidate = some head →
      (s.startUp.params.highWater ≤ s.queue.length → s.chooseGrant = some (.write head)) ∧
      (s.memPort.passedOver = 4 → s.chooseGrant = some (.write head)) ∧
      (s.queue.length < s.startUp.params.highWater → s.memPort.passedOver < 4 →
        ∀ e r, s.demandCandidate = some (e, r) → s.chooseGrant = some (.demand e r)) ∧
      (s.demandCandidate = none → s.chooseGrant = some (.write head))) ∧
    (s.headCandidate = none →
      (∀ e r, s.demandCandidate = some (e, r) → s.chooseGrant = some (.demand e r)) ∧
      (s.demandCandidate = none →
        (2 ≤ s.memPort.count Slot.isFree → s.chooseGrant =
          (s.readAhead.candidate s.queue s.memPort.orphanedWriteLines).map .fetch) ∧
        (s.memPort.count Slot.isFree < 2 → s.chooseGrant = none)))) ∧
  (∀ slot : Slot,
    (slot.isFree = true ↔ slot = .free) ∧
    (slot.isBusy = true ↔ ∃ owner line d, slot = .busy owner line d) ∧
    (slot.isOrphaned = true ↔ ∃ kind line, slot = .orphaned kind line) ∧
    (slot.holdsWrite = true ↔
      (∃ place line d, slot = .busy (.write place) line d) ∨
        ∃ line, slot = .orphaned .write line)) ∧
  ∀ (m : MemPort) (f : Slot → Bool),
    m.count f = ([0, 1, 2, 3] : List SlotId).countP fun i => f m.slots[i]

/-- GRANT (R109, R110, R124, and R28, R54, R81 for the owner); no grant without a FREE slot or a candidate
(R123). -/
def Obligations.GrantFillsLowestFreeSlot : Prop :=
  (∀ s : State, s.awake →
    ((∀ i : SlotId, s.memPort.slots[i] ≠ .free) ∨ s.chooseGrant = none) →
    exec .grant s = .next s) ∧
  (∀ p : Fin 64, fullMask[p] = true) ∧
  ∀ (s : State) (i : SlotId), s.awake → (s.memPort.slots[i]) = .free →
    (∀ j : SlotId, j < i → s.memPort.slots[j] ≠ .free) →
    let deadline : Timer :=
      { start := s.startUp.counter, span := BitVec.ofNat 32 s.startUp.params.responseTimeout }
    (∀ head rest, s.chooseGrant = some (.write head) → s.queue = head :: rest →
      exec .grant s = .next ({ s with
        queue := { head with state := .issued } :: rest
        memPort :=
          { slots := s.memPort.slots.set i (.busy (.write head.place) head.line deadline)
            passedOver := 0
            lastRequest := lineWrite i head } } : State).settle) ∧
    (∀ e r, s.chooseGrant = some (.demand e r) →
      exec .grant s = .next ({ s with
        tracker := s.tracker.map fun x =>
          if x.place = e.place then { x with state := .issued } else x
        memPort :=
          { slots := s.memPort.slots.set i (.busy (.demand (some e.place)) r.line deadline)
            passedOver :=
              s.memPort.passedOver + (if s.headCandidate.isSome then 1 else 0)
            lastRequest := lineRead i r.line r.mask } } : State).settle) ∧
    (∀ k l, s.chooseGrant = some (.fetch k) → s.readAhead.lines[k] = some l →
      exec .grant s = .next ({ s with
        readAhead := s.readAhead.setLine k (some { l with state := .fetching })
        memPort :=
          { slots := s.memPort.slots.set i (.busy (.fetch k) l.target deadline)
            passedOver := s.memPort.passedOver
            lastRequest := lineRead i l.target fullMask } } : State).settle)

/-- A response to a FREE slot is stray (R115), and one to a slot without an owner is dropped (R113). -/
def Obligations.UnownedResponses : Prop :=
  ∀ (s : State) (message : List Byte), s.awake →
    let r := parseResponse message
    (s.memPort.slots[r.slot] = .free →
      exec (.response message) s = .next ({ s with
        log := s.log.append
          { time := s.startUp.counter, event := .strayResponse r.slot r.kind } }
        : State).settle) ∧
    (∀ line deadline, s.memPort.slots[r.slot] = .busy (.demand none) line deadline →
      exec (.response message) s = .next (s.slotFreed r.slot).settle)

/-- A response to the head record (R29, R30, R32, Table 2-2). -/
def Obligations.WriteTakesResponse : Prop :=
  ∀ (s : State) (message : List Byte) (head : WriteRecord) (rest : List WriteRecord)
    (line : Addr) (deadline : Timer), s.awake →
    let r := parseResponse message
    s.memPort.slots[r.slot] = .busy (.write head.place) line deadline →
    s.queue = head :: rest →
    let f := s.slotFreed r.slot
    (r.kind = .ok →
      exec (.response message) s = .next ((
        match head.ackTag, head.link, head.poison with
        | some tag, none, true =>
          (f.logEvent (.writeParity head.port head.window head.line head.length
            (some tag))).depart rest [(head, .succeeded)]
        | _, _, _ => f.depart rest [(head, .succeeded)]).settle)) ∧
    (r.kind = .wait →
      (∀ limit, head.retry.bound = some limit → limit ≤ head.waitCount →
        exec (.response message) s = .next (f.headFailure head rest .retrySpent).settle) ∧
      ((head.retry.bound = none ∨ ∃ limit, head.retry.bound = some limit ∧ head.waitCount < limit) →
        exec (.response message) s = .next ({ f with
          queue :=
            { head with
              waitCount :=
                if head.retry = .unlimited then min (head.waitCount + 1) 65535
                else head.waitCount + 1
              state := .backoff
                { start := s.startUp.counter,
                  span := BitVec.ofNat 32 s.startUp.params.backoff } } :: rest }
          : State).settle)) ∧
    (r.kind = .fault ∨ r.kind = .okPoison →
      exec (.response message) s = .next (f.headFailure head rest .memFault).settle)

/-- What departures do outside the tracker (R41, R140): a credit for each to its source port, and nothing else
but the queue, the tracker, the lists and the horizons. -/
def Obligations.DepartureOwesCredit : Prop :=
  ∀ (s : State) (rest : List WriteRecord) (rs : List Report),
    let u := s.depart rest rs
    u = { s with
      queue := rest, tracker := u.tracker, readAhead := u.readAhead
      portA := { s.portA with
        writeOwed := s.portA.writeOwed + rs.countP fun r => r.1.port = .a
        done := u.portA.done }
      portB := { s.portB with
        writeOwed := s.portB.writeOwed + rs.countP fun r => r.1.port = .b
        done := u.portB.done } } ∧
    u.tracker.map Entry.place = s.tracker.map Entry.place ∧
    u.tracker.map Entry.port = s.tracker.map Entry.port ∧
    u.tracker.map Entry.tag = s.tracker.map Entry.tag

/-- What the departures of one event, one or the several of a freeze, do to the acked writes they end (R29, R35,
R40, R62), to the PENDING fences (R98 to R100), to the order in which these join their lists (R64), to the
horizons (R41), and to the pool when an emptied fence purges (R92, R102): every stream is FREE, so the top-up
pass that follows creates nothing. That the order holds over all the departures of the event is the model's reading (log 22). -/
def Obligations.DepartureReportsToTracker : Prop :=
  (∀ (s : State) (rest : List WriteRecord) (rs : List Report), s.workSound = true →
    (rs.map Prod.fst).Sublist s.queue →
    let u := s.depart rest rs
    (∀ r d place, (r, d) ∈ rs → r.link = some place → ∃ e ∈ s.tracker, e.place = place ∧
      { e with state := .done (endStatus d r.poison) [] } ∈ u.tracker) ∧
    (∀ e ∈ s.tracker, ∀ f, e.kind = .fence f → e.state = .pending →
      { e with
        kind := .fence (f.afterAll rs)
        state :=
          if e.emptiedBy rs then
            .done (if (f.afterAll rs).failedCount = 0 ∧ f.droppedSeen = false then .ok
              else .faulted) []
          else .pending } ∈ u.tracker) ∧
    (∀ e ∈ s.tracker, ∀ q, e.kind = .read q →
      weighEntry rest s.memPort.orphanedWriteLines { e with kind := .read { q with
        horizon := q.horizon.filter fun p => !(departed rs).contains p } } ∈ u.tracker) ∧
    (∀ p, (u.port p).done = (s.port p).done ++
      (rs.filterMap fun x => if x.1.port = p then x.1.link else none) ++
      (s.tracker.filter fun e => decide (e.port = p) && e.emptiedBy rs).map Entry.place) ∧
    ((∀ e ∈ s.tracker, ∀ f, e.kind = .fence f → e.emptiedBy rs = true → f.purge = false) →
      u.readAhead.streams = s.readAhead.streams ∧
      ∀ i : LineId, u.readAhead.lines[i] = (s.readAhead.lines[i]).map fun l =>
        { l with horizon := l.horizon.filter fun p => !(departed rs).contains p }) ∧
    ((∃ e ∈ s.tracker, ∃ f, e.kind = .fence f ∧ e.emptiedBy rs = true ∧ f.purge = true) →
      (∀ k : StreamId, u.readAhead.streams[k] = none) ∧
      ∀ i : LineId, u.readAhead.lines[i] = (s.readAhead.lines[i]).bind fun l =>
        let left := { l with horizon := l.horizon.filter fun p => !(departed rs).contains p }
        match l.owner, l.state with
        | none, _ => some left
        | some _, .valid _ _ => none
        | some _, .pending _ => if l.attached = [] then none else some { left with owner := none }
        | some _, .fetching => some { left with owner := none }) ∧
    u.readAhead.nextFetch = s.readAhead.nextFetch) ∧
  (∀ (f : FenceFields) (r : WriteRecord) (d : Departure),
    (r.place ∉ f.horizon → f.report (r, d) = f) ∧
    (r.place ∈ f.horizon → f.report (r, d) = { f with
      horizon := f.horizon.filter fun p => p ≠ r.place
      failedCount := f.failedCount + (if d = .succeeded then 0 else 1)
      poisonedSeen := f.poisonedSeen || (r.poison && !decide (d = .withdrawn)) }))

/-- A response to an ISSUED demand read (R55, R56, R58, R111). -/
def Obligations.DemandReadTakesResponse : Prop :=
  ∀ (s : State) (message : List Byte) (e : Entry) (q : ReadFields) (line : Addr)
    (deadline : Timer), s.awake → s.orderSound = true →
    let r := parseResponse message
    s.memPort.slots[r.slot] = .busy (.demand (some e.place)) line deadline →
    e ∈ s.tracker → e.kind = .read q →
    let f := s.slotFreed r.slot
    (∀ data, r.data = some data →
      (r.kind = .ok → exec (.response message) s = .next
        (f.endsAs e .ok ((List.range q.length).map fun i =>
          lineByte data (laneMap q.lane (q.offset + i)))).settle) ∧
      (r.kind = .okPoison → exec (.response message) s = .next
        (f.endsAs e .poisoned ((List.range q.length).map fun i =>
          lineByte data (laneMap q.lane (q.offset + i)))).settle)) ∧
    (r.kind = .wait →
      (∀ limit, q.retry.bound = some limit → limit ≤ q.waitCount →
        exec (.response message) s = .next (f.endsAs e .retrySpent []).settle) ∧
      ((q.retry.bound = none ∨ ∃ limit, q.retry.bound = some limit ∧ q.waitCount < limit) →
        exec (.response message) s = .next ({ f with
          tracker := s.tracker.map fun x =>
            if x.place = e.place then
              { x with
                kind := .read { q with
                  waitCount :=
                    if q.retry = .unlimited then min (q.waitCount + 1) 65535
                    else q.waitCount + 1 }
                state := .backoff
                  { start := s.startUp.counter,
                    span := BitVec.ofNat 32 s.startUp.params.backoff } }
            else x } : State).settle)) ∧
    (r.kind = .fault ∨ (r.data = none ∧ r.kind ≠ .wait) →
      exec (.response message) s = .next (f.endsAs e .memFault []).settle)

/-- A response to a FETCHING line (R82 to R85, R111): what becomes of the line, and the order in which its
attached reads join their list (R64). -/
def Obligations.FetchTakesResponse : Prop :=
  ∀ (s : State) (message : List Byte) (i : LineId) (l : Line) (line : Addr) (deadline : Timer),
    s.awake → s.workSound = true →
    let r := parseResponse message
    s.memPort.slots[r.slot] = .busy (.fetch i) line deadline → s.readAhead.lines[i] = some l →
    let joins (u : State) : Prop := ∀ p, (u.port p).done = (s.port p).done ++
      l.attached.filter fun place => s.entryIs place fun e => decide (e.port = p)
    (∀ data, r.data = some data → (r.kind = .ok ∨ r.kind = .okPoison) →
      ∃ u : State, exec (.response message) s = .next u.settle ∧ joins u ∧
        (∀ e ∈ s.tracker, ∀ q, e.kind = .read q → e.place ∈ l.attached →
          ∃ e' ∈ u.tracker, e' = { e with
            state := .done (if r.kind = .okPoison then .poisoned else .ok)
              (spanData q.lane q.offset q.length data) }) ∧
        (∀ e ∈ s.tracker, e.place ∉ l.attached → e ∈ u.tracker) ∧
        u.readAhead =
          (if l.owner.isSome ∧ l.stale = false then
            s.readAhead.setLine i (some { l with
              state := .valid (decide (r.kind = .okPoison)) data, horizon := [],
              attached := [] })
          else (s.readAhead.setLine i none).topUp s.fetchEnv) ∧
        u = { s.slotFreed r.slot with
          tracker := u.tracker, readAhead := u.readAhead
          portA := { s.portA with done := u.portA.done }
          portB := { s.portB with done := u.portB.done } }) ∧
    (r.kind = .wait → (l.attached ≠ [] ∨ (l.owner.isSome ∧ l.stale = false)) →
      (l.retry.bound = none ∨ ∃ limit, l.retry.bound = some limit ∧ l.waitCount < limit) →
      exec (.response message) s = .next ({ s.slotFreed r.slot with
        readAhead := s.readAhead.setLine i (some { l with
          state := .pending (some
            { start := s.startUp.counter,
              span := BitVec.ofNat 32 s.startUp.params.backoff })
          waitCount :=
            if l.retry = .unlimited then min (l.waitCount + 1) 65535
            else l.waitCount + 1 }) } : State).settle) ∧
    (r.kind = .wait → l.attached = [] → (l.owner = none ∨ l.stale = true) →
      exec (.response message) s = .next ({ s.slotFreed r.slot with
        readAhead := (s.readAhead.setLine i none).topUp s.fetchEnv } : State).settle) ∧
    (∀ status : Status,
      ((r.kind = .fault ∨ (r.data = none ∧ r.kind ≠ .wait)) ∧ status = .memFault) ∨
        (r.kind = .wait ∧ (l.attached ≠ [] ∨ (l.owner.isSome ∧ l.stale = false)) ∧
          (∃ limit, l.retry.bound = some limit ∧ limit ≤ l.waitCount) ∧ status = .retrySpent) →
      ∃ u : State, exec (.response message) s = .next u.settle ∧
        s.fetchFailure (s.slotFreed r.slot) u i l status)

/-- SLOT_DEADLINE (R117; R33, R59, R85 for the owner, by whose nature R107 gives the slot's kind), and the late
response that ends ORPHANED (R114). That the record gives the kind that arrived, also for an OK or OK_POISON without data on a slot of kind DEMAND or
FETCH, is the model's choice (log 29). -/
def Obligations.DeadlineOrphansSlot : Prop :=
  (∀ (s : State) (i : SlotId) (owner : SlotOwner) (line : Addr) (d : Timer), s.awake →
    s.memPort.slots[i] = .busy owner line d →
    ((s.startUp.counter - d.start).toNat < d.span.toNat →
      exec (.slotDeadline i) s = .next s) ∧
    (d.span.toNat ≤ (s.startUp.counter - d.start).toNat →
      let kind : SlotKind :=
        match owner with
        | .write _ => .write
        | .demand _ => .demand
        | .fetch _ => .fetch
      let f := s.setSlot i (.orphaned kind line)
      let weighed (u : State) : State :=
        { u with tracker := u.tracker.map (weighEntry u.queue u.memPort.orphanedWriteLines) }
      (∀ head rest, owner = .write head.place → s.queue = head :: rest →
        exec (.slotDeadline i) s = .next (weighed (f.headFailure head rest .timeout)).settle) ∧
      (∀ e ∈ s.tracker, s.orderSound = true → owner = .demand (some e.place) →
        exec (.slotDeadline i) s = .next (weighed (f.endsAs e .timeout [])).settle) ∧
      (owner = .demand none → exec (.slotDeadline i) s = .next (weighed f).settle) ∧
      (∀ k l, owner = .fetch k → s.readAhead.lines[k] = some l → s.workSound = true →
        ∃ u : State, exec (.slotDeadline i) s = .next (weighed u).settle ∧
          s.fetchFailure f u k l .timeout))) ∧
  ∀ (s : State) (message : List Byte) (kind : SlotKind) (line : Addr), s.awake →
    let r := parseResponse message
    s.memPort.slots[r.slot] = .orphaned kind line →
      exec (.response message) s = .next ({ s with
        log := s.log.append
          { time := s.startUp.counter, event := .lateResponse r.slot kind line r.kind }
        memPort := { s.memPort with slots := s.memPort.slots.set r.slot .free }
        tracker := s.tracker.map
          (weighEntry s.queue (s.slotFreed r.slot).memPort.orphanedWriteLines) }
        : State).settle

/-- The three backoff ends (R31, R57, R84) and IDLE_EXPIRY (R87, R88): at their time and not before it. -/
def Obligations.TimedEndsActAtTheirTime : Prop :=
  (∀ (s : State) (d : Timer), s.awake →
    let due := d.span.toNat ≤ (s.startUp.counter - d.start).toNat
    (∀ head rest, s.queue = head :: rest → head.state = .backoff d →
      (due → exec .writeBackoffEnd s = .next ({ s with
        queue := { head with state := .queued } :: rest } : State).settle) ∧
      (¬ due → exec .writeBackoffEnd s = .next s)) ∧
    (∀ e q, e ∈ s.tracker → s.tagsUnique = true → s.readsWeighed = true → e.kind = .read q →
      e.state = .backoff d →
      (due → exec (.readBackoffEnd e.port e.tag) s = .next ({ s with
        tracker := s.tracker.map fun x =>
          if x.place = e.place then
            { e with state :=
                if readEligible s.queue s.memPort.orphanedWriteLines e.port q then .ready
                else .orderWait }
          else x } : State).settle) ∧
      (¬ due → exec (.readBackoffEnd e.port e.tag) s = .next s)) ∧
    (∀ i l, s.readAhead.lines[i] = some l → l.state = .pending (some d) →
      (due → exec (.fetchBackoffEnd i) s = .next ({ s with
        readAhead := s.readAhead.setLine i (some { l with state := .pending none }) }
        : State).settle) ∧
      (¬ due → exec (.fetchBackoffEnd i) s = .next s))) ∧
  (∀ (s : State) (k : StreamId) (st : Stream), s.awake → s.readAhead.streams[k] = some st →
    (s.startUp.params.idle ≤ (s.startUp.counter - st.lastUse).toNat →
      exec (.idleExpiry k) s = .next ({ s with
        readAhead := (s.readAhead.retire k).topUp s.fetchEnv } : State).settle) ∧
    ((s.startUp.counter - st.lastUse).toNat < s.startUp.params.idle →
      exec (.idleExpiry k) s = .next s))

/-- Retirement (R75, R87): the stream is FREE, and each line it owned meets the fate of R75. A purge retires
every stream and leaves no VALID line (R92, R102). -/
def Obligations.RetirementReleasesLines : Prop :=
  ∀ (s : State) (k : StreamId) (st : Stream), s.poolSound = true →
    s.readAhead.streams[k] = some st →
    (s.readAhead.retire k).streams[k] = none ∧
    (∀ j : StreamId, j ≠ k → (s.readAhead.retire k).streams[j] = s.readAhead.streams[j]) ∧
    (∀ i : LineId, i ∉ st.owned → (s.readAhead.retire k).lines[i] = s.readAhead.lines[i]) ∧
    (∀ (i : LineId) (l : Line), i ∈ st.owned → s.readAhead.lines[i] = some l →
      (s.readAhead.retire k).lines[i] =
        (match l.state with
          | .valid _ _ => none
          | .pending _ => if l.attached = [] then none else some { l with owner := none }
          | .fetching => some { l with owner := none })) ∧
    (∀ j : StreamId, (s.readAhead.purge s.fetchEnv).streams[j] = none) ∧
    (∀ (i : LineId) (l : Line), (s.readAhead.purge s.fetchEnv).lines[i] = some l →
      l.isValid = false ∧ l.owner = none) ∧
    ∀ l : Line, l.released =
      (match l.state with
        | .valid _ _ => none
        | .pending _ => if l.attached = [] then none else some { l with owner := none }
        | .fetching => some { l with owner := none })

/-! ## Sending -/

/-- COMPLETION_BEGIN and COMPLETION_SENT (R65, R145, R146): when the link is the completion's, what it carries,
and that nothing begins when it is not. -/
def Obligations.CompletionsSentOldestFirst : Prop :=
  ∀ (s : State) (p : PortId), s.awake →
    let creditMayGo := s.quiesce = .running ∧
      (0 < (s.port p).writeOwed ∨ 0 < (s.port p).requestOwed)
    let turn := (s.port p).state = .active ∧ (s.port p).link = .idle ∧ (s.port p).done ≠ [] ∧
      (creditMayGo → (s.port p).lastSent = .credit)
    (¬ turn → exec (.completionBegin p) s = .next s) ∧
    (s.workSound = true → ∀ oldest rest, (s.port p).done = oldest :: rest →
      (turn → ∃ e ∈ s.tracker, e.place = oldest ∧
        exec (.completionBegin p) s = .next (s.setPort p { s.port p with
          link := .sendingCompletion e.completion, lastSent := .completion }).settle) ∧
      (∀ message, (s.port p).link = .sendingCompletion message →
        exec (.completionSent p) s = .next ({ s with
          tracker := s.tracker.filter fun e => !decide (e.place = oldest) }.setPort p
            { s.port p with
              link := .idle, done := rest,
              requestOwed := (s.port p).requestOwed + 1 }).settle))

/-- CREDIT_BEGIN and CREDIT_SENT (R141, R142, R146): when it begins, what it carries, and when it does not. -/
def Obligations.CreditMessageTakesAllOwed : Prop :=
  ∀ (s : State) (p : PortId), s.awake →
    let turn := (s.port p).state = .active ∧ (s.port p).link = .idle ∧ s.quiesce = .running ∧
      (0 < (s.port p).writeOwed ∨ 0 < (s.port p).requestOwed) ∧
      ((s.port p).done = [] ∨ (s.port p).lastSent = .completion)
    (turn → exec (.creditBegin p) s = .next (s.setPort p { s.port p with
      writeHeld := (s.port p).writeHeld + (s.port p).writeOwed
      writeOwed := 0
      requestHeld := (s.port p).requestHeld + (s.port p).requestOwed
      requestOwed := 0
      link := .sendingCredit (creditMessage (s.port p).writeOwed (s.port p).requestOwed)
      lastSent := .credit }).settle) ∧
    (¬ turn → exec (.creditBegin p) s = .next s) ∧
    (∀ message, (s.port p).link = .sendingCredit message →
      exec (.creditSent p) s = .next (s.setPort p { s.port p with link := .idle }).settle)

/-- What goes on the links (Tables 11-2 to 11-4, R110, R144, R194): positions, lengths, status codes and good
parity. -/
def Obligations.MessagesFollowLayouts : Prop :=
  ([Status.ok, .poisoned, .storedPoisoned, .memFault, .timeout, .retrySpent, .unmapped, .frozen,
    .readOnly, .faulted].map Status.code = [0, 1, 2, 3, 4, 5, 6, 7, 8, 9]) ∧
  (∀ (e : Entry) (status : Status) (data : List Byte), e.state = .done status data →
    e.completion = (([0x10, (match e.kind with
        | .read _ => 0x01
        | .ackedWrite => 0x02
        | .fence _ => 0x03), status.code, e.tag] : List Byte) ++
      (match e.kind, status with
        | .read r, .ok => byteOf r.length :: data
        | .read r, .poisoned => byteOf r.length :: data
        | .read _, _ => []
        | .ackedWrite, _ => []
        | .fence f, _ => [byteOf f.failedCount,
            (if f.droppedSeen then 1 else 0) + (if f.poisonedSeen then 2 else 0)])).map
      fun b => { data := b, parity := parityOf b }) ∧
  (∀ writes requests : Nat, creditMessage writes requests =
    ([0x20, byteOf writes, byteOf requests] : List Byte).map
      fun b => { data := b, parity := parityOf b }) ∧
  (∀ (i : SlotId) (r : WriteRecord), (lineWrite i r).length = 80 ∧
    byteAt (lineWrite i r) 0 = 0x01 ∧ byteAt (lineWrite i r) 1 = BitVec.ofNat 8 i.val ∧
    byteAt (lineWrite i r) 2 = (if r.poison then 1 else 0) ∧
    addrAt (lineWrite i r) 3 = r.line ∧
    (∀ p : Fin 64, (byteAt (lineWrite i r) (8 + p.val / 8)).getLsbD (p.val % 8) = r.mask[p] ∧
      byteAt (lineWrite i r) (16 + p.val) = r.data[p])) ∧
  (∀ (i : SlotId) (line : Addr) (mask : Mask), (lineRead i line mask).length = 16 ∧
    byteAt (lineRead i line mask) 0 = 0x02 ∧
    byteAt (lineRead i line mask) 1 = BitVec.ofNat 8 i.val ∧
    byteAt (lineRead i line mask) 2 = 0 ∧ addrAt (lineRead i line mask) 3 = line ∧
    (∀ p : Fin 64, (byteAt (lineRead i line mask) (8 + p.val / 8)).getLsbD (p.val % 8) =
      mask[p]))

/-- How arriving messages are read (R194, Table 11-1; R195, R111, Table 11-5): each field from its bytes, a
missing byte as 00H; and parity and the check word (R196). -/
def Obligations.MessagesReadByPosition : Prop :=
  (∀ (kind : LinkByte) (rest : List LinkByte),
    let byte (i : Nat) : Byte := ((kind :: rest).map LinkByte.data).getD i 0
    let address : Addr := byte 4 ++ byte 5 ++ byte 6 ++ byte 7 ++ byte 8
    parseRead rest = .read (byte 2) address (byte 3) ∧
    parseWrite rest =
      .write ((byte 1).getLsbD 0) (byte 2) address (byte 3) ((kind :: rest).drop 9) ∧
    parseFence rest =
      .fence (byte 2) (if (byte 1).getLsbD 1 then .all else .port) ((byte 1).getLsbD 2) ∧
    (kind.data = 1 → parseRequest (kind :: rest) = parseRead rest) ∧
    (kind.data = 2 → parseRequest (kind :: rest) = parseWrite rest) ∧
    (kind.data = 3 → parseRequest (kind :: rest) = parseFence rest) ∧
    (kind.data ≠ 1 → kind.data ≠ 2 → kind.data ≠ 3 →
      parseRequest (kind :: rest) = .unknown)) ∧
  parseRequest [] = .unknown ∧
  (∀ message : List Byte,
    let byte (i : Nat) : Byte := message.getD i 0
    let r := parseResponse message
    r.slot.val = (byte 1).toNat % 4 ∧
    ((byte 2).toNat % 4 = 0 → r.kind = .ok) ∧ ((byte 2).toNat % 4 = 1 → r.kind = .okPoison) ∧
    ((byte 2).toNat % 4 = 2 → r.kind = .wait) ∧ ((byte 2).toNat % 4 = 3 → r.kind = .fault) ∧
    ((byte 3).getLsbD 0 = true → 4 + 64 ≤ message.length →
      ∃ data, r.data = some data ∧ ∀ k : Fin 64, data[k] = byte (4 + k.val)) ∧
    ((byte 3).getLsbD 0 = false ∨ message.length < 4 + 64 → r.data = none)) ∧
  (∀ r : Response,
    (r.data = none → r.kind = .ok ∨ r.kind = .okPoison → r.effective = .fault) ∧
    (r.data ≠ none ∨ r.kind = .wait ∨ r.kind = .fault → r.effective = r.kind)) ∧
  (∀ b : LinkByte, goodParity b = true ↔
    ((List.range 8).countP (fun i => b.data.getLsbD i) + (if b.parity then 1 else 0)) % 2 = 1) ∧
  (∀ b : Byte, goodParity (withParity b) = true) ∧ parityOf 0x00 = true ∧
  parityOf 0x01 = false ∧ parityOf 0xFF = true ∧ checkWord [] = 0xFFFF ∧
  (∀ (bytes : List Byte) (b : Byte), checkWord (bytes ++ [b]) =
    (List.range 8).foldl (fun (reg : BitVec 16) i =>
      if reg.getLsbD 15 = b.getLsbD (7 - i) then reg <<< 1 else (reg <<< 1) ^^^ 0x1021)
      (checkWord bytes)) ∧
  checkWord [0x31, 0x32, 0x33, 0x34, 0x35, 0x36, 0x37, 0x38, 0x39] = 0x29B1

/-! ## The maintenance port -/

/-- SELECT_ASSERT, SELECT_RELEASE, LAST_BIT_OF_RESPONSE_SENT and UNKNOWN_COMMAND (R166, R167): an unknown code
is answered UNKNOWN with no effect, and its frame ends as any other, at the last bit of its response. Outside
RECEIVING no maintenance command is taken (log 16). The bits on out are a low start marker and the response's
bytes while ANSWERING, else none (R166, Section 11.3). -/
def Obligations.FramesFollowSelect : Prop :=
  ∀ s : State, s.awake →
    (s.pins.select = false → exec .selectAssert s = .next ({ s with
      pins := { s.pins with select := true }
      maint :=
        if s.maint.frame = .idle then
          { frame := .receiving, commandPart := [], response := [] }
        else s.maint } : State).settle) ∧
    (s.pins.select = true → exec .selectRelease s = .next ({ s with
      pins := { s.pins with select := false }
      maint := { frame := .idle, commandPart := [], response := [] } } : State).settle) ∧
    (s.maint.frame = .answering → exec .lastBitOfResponseSent s = .next ({ s with
      maint := { s.maint with frame := .spent } } : State).settle) ∧
    (∀ code, s.maint.frame = .receiving → (Instr.unknownCommand code).wellFormed = true →
      exec (.unknownCommand code) s = s.answering [code] [0x03]) ∧
    (∀ i : Instr, s.maint.frame ≠ .receiving → i.commandPart ≠ [] → exec i s = .next s) ∧
    s.maint.outBits =
      (if s.maint.frame = .answering then
        false :: s.maint.response.flatMap fun b => (List.range 8).map fun i => b.getLsbD (7 - i)
      else [])

/-- The order in which a command is weighed (R168, Table 9-2): an unknown code first, then LOADING, whatever the
arguments, then BAD_ARG, before the state is weighed; each answer changes nothing. -/
def Obligations.CommandsWeighedInOrder : Prop :=
  (∀ (s : State) (code : Byte), s.receiving → (Instr.unknownCommand code).wellFormed = true →
    exec (.unknownCommand code) s = s.answering [code] [0x03]) ∧
  (∀ (s : State) (i : Instr), s.receiving → s.startUp.partState = .loading →
    i.commandPart ≠ [] → i ≠ .getStatus → (∀ code, i ≠ .unknownCommand code) →
    exec i s = s.answering i.commandPart [0x01]) ∧
  (∀ s : State, s.serving →
    (∀ (i : Instr) (n : Byte), windowCommand n i → 8 ≤ n.toNat →
      exec i s = s.answering i.commandPart [0x02]) ∧
    (∀ (n : Byte) (record : WindowBytes), (8 ≤ n.toNat ∨ windowFieldsOf record = none) →
      exec (.setWindow n record) s = s.answering (Instr.setWindow n record).commandPart [0x02]) ∧
    (∀ mode retryCode : Byte, (2 ≤ mode.toNat ∨ 4 ≤ retryCode.toNat) →
      exec (.setCatchall mode retryCode) s = s.answering [0x08, mode, retryCode] [0x02]) ∧
    (∀ params : ParamBytes,
      (params.responseTimeout = 0 ∨ params.backoff = 0 ∨ params.idle = 0 ∨
        params.highWater.toNat < 8 ∨ 32 < params.highWater.toNat ∨ params.writeA = 0 ∨
        31 < params.writeA.toNat ∨ params.requestA = 0 ∨ 15 < params.requestA.toNat) →
      exec (.setParams params) s = s.answering (Instr.setParams params).commandPart [0x02]) ∧
    (∀ mask : Byte, 8 ≤ mask.toNat →
      exec (.setAlertMask mask) s = s.answering [0x0B, mask] [0x02]))

/-- What the bytes of a configuration give (Tables 11-7, 11-8, R3, R173, R187): a window record that bytes give is
valid and every field is the byte's, by the codes named; so are the parameters, the alert mask, the catch-all
and the state of an image's window record. -/
def Obligations.ConfigurationBytesReadWhole : Prop :=
  (∀ (b : WindowBytes) (f : WindowFields), windowFieldsOf b = some f ↔
    f.valid = true ∧ f.base = b.base ∧ f.targetBase = b.targetBase ∧
      f.sizeCode = b.sizeCode.toNat ∧ f.depth = b.depth.toNat ∧ b.writeAccess = f.access.code ∧
      b.readOrder = f.order.code ∧ b.laneOrder = f.lane.code ∧ b.retryCode = f.retry.code ∧
      b.faultAction = f.fault.code) ∧
  (∀ f : WindowFields, f.valid = true ↔
    f.sizeCode ≤ 27 ∧ (4096 * 2 ^ f.sizeCode) ∣ f.base.toNat ∧
      (4096 * 2 ^ f.sizeCode) ∣ f.targetBase.toNat ∧
      f.base.toNat + 4096 * 2 ^ f.sizeCode ≤ 2 ^ 40 ∧
      f.targetBase.toNat + 4096 * 2 ^ f.sizeCode ≤ 2 ^ 40 ∧ f.depth ≤ 4 ∧
      ¬ (f.order = .strict ∧ 0 < f.depth)) ∧
  ([WriteAccess.writable, .readOnly].map WriteAccess.code = [0, 1] ∧
    [ReadOrder.relaxed, .strict].map ReadOrder.code = [0, 1] ∧
    [LaneOrder.asIs, .swap32, .swap64].map LaneOrder.code = [0, 1, 2] ∧
    [RetryLimit.zero, .eight, .sixtyFour, .unlimited].map RetryLimit.code = [0, 1, 2, 3] ∧
    [RetryLimit.zero, .eight, .sixtyFour, .unlimited].map RetryLimit.bound =
      [some 0, some 8, some 64, none] ∧
    [FaultAction.goOn, .freeze].map FaultAction.code = [0, 1] ∧
    [CatchMode.pass, .reject].map CatchMode.code = [0, 1]) ∧
  (∀ (b : Byte) (m : CatchMode), modeOf b = some m ↔ b = m.code) ∧
  (∀ (b : Byte) (r : RetryLimit), retryOf b = some r ↔ b = r.code) ∧
  (∀ (b : Byte) (m : AlertMask), maskOf b = some m ↔
    b.toNat < 8 ∧ m.log = b.getLsbD 0 ∧ m.freeze = b.getLsbD 1 ∧ m.port = b.getLsbD 2) ∧
  (∀ (b : ParamBytes) (p : Params), paramsOf b = some p ↔
    1 ≤ p.responseTimeout ∧ 1 ≤ p.backoff ∧ 1 ≤ p.idle ∧ 8 ≤ p.highWater ∧ p.highWater ≤ 32 ∧
      1 ≤ p.writeA ∧ p.writeA ≤ 31 ∧ 1 ≤ p.requestA ∧ p.requestA ≤ 15 ∧
      p.responseTimeout = b.responseTimeout.toNat ∧ p.backoff = b.backoff.toNat ∧
      p.idle = b.idle.toNat ∧ p.highWater = b.highWater.toNat ∧ p.writeA = b.writeA.toNat ∧
      p.requestA = b.requestA.toNat) ∧
  ∀ (bytes : List Byte) (i : Nat),
    let byte (j : Nat) : Byte := bytes.getD (i + j) 0
    windowBytesAt bytes i =
      { base := byte 0 ++ byte 1 ++ byte 2 ++ byte 3 ++ byte 4, sizeCode := byte 5,
        targetBase := byte 6 ++ byte 7 ++ byte 8 ++ byte 9 ++ byte 10, writeAccess := byte 11,
        readOrder := byte 12, depth := byte 13, laneOrder := byte 14, retryCode := byte 15,
        faultAction := byte 16 } ∧
    paramBytesAt bytes i =
      { responseTimeout := byte 0 ++ byte 1, backoff := byte 2, idle := byte 3,
        highWater := byte 4, writeA := byte 5, requestA := byte 6 } ∧
    ∀ w : Window, imageWindow bytes i = some w ↔
      windowFieldsOf (windowBytesAt bytes i) = some w.fields ∧ w.dropCount = 0 ∧
        ((byte 17 = 0 ∧ w.state = .disabled) ∨ (byte 17 = 1 ∧ w.state = .enabled))

/-- The reads of the part's state (R157, R170, R171): each changes nothing but the maintenance port, and its
data has the length of Table 11-6. -/
def Obligations.ReadCommandsChangeNothing : Prop :=
  (∀ s : State, s.receiving →
    exec .getStatus s = s.answering [0x01] (0x00 :: s.statusBytes) ∧
    s.statusBytes.length = 65) ∧
  (∀ s : State, s.serving →
    (∀ (n : Byte) (w : WindowId), n.toNat = w.val →
      exec (.getWindow n) s = s.answering [0x02, n] (0x00 :: (s.table.windows[w]).bytes) ∧
      ((s.table.windows[w]).bytes).length = 20) ∧
    exec .getCatchall s = s.answering [0x07] (0x00 :: s.table.catchAll.bytes) ∧
    s.table.catchAll.bytes.length = 4 ∧
    exec .getParams s = s.answering [0x09] (0x00 :: paramData s.startUp.params s.startUp.mask) ∧
    (paramData s.startUp.params s.startUp.mask).length = 10 ∧
    exec .peekLog s = s.answering [0x0C] (0x00 :: BitVec.ofNat 8 s.log.records.length ::
      BitVec.ofNat 8 s.log.overflow ::
        (match s.log.records with
          | [] => List.replicate 26 0
          | oldest :: _ => oldest.bytes)) ∧
    ∀ r : LogRecord, r.bytes.length = 26)

/-- The data of the read commands, byte by byte (Tables 11-7 to 11-11, R153, R170, R171): fields of more than
one byte most significant byte first, an absent field of a log record 00H with its presence flag clear. -/
def Obligations.MaintenanceDataByPosition : Prop :=
  (∀ n : Nat, byteOf n = BitVec.ofNat 8 n) ∧
  (∀ a : Addr, addrBytes a = (List.range 5).map fun i => a.extractLsb' (8 * (4 - i)) 8) ∧
  (∀ t : Time, timeBytes t = (List.range 4).map fun i => t.extractLsb' (8 * (3 - i)) 8) ∧
  (∀ h : BitVec 16, halfBytes h = (List.range 2).map fun i => h.extractLsb' (8 * (1 - i)) 8) ∧
  (∀ w : Window, w.bytes = addrBytes w.fields.base ++ byteOf w.fields.sizeCode ::
    (addrBytes w.fields.targetBase ++
      [w.fields.access.code, w.fields.order.code, byteOf w.fields.depth, w.fields.lane.code,
        w.fields.retry.code, w.fields.fault.code, w.state.code] ++
      halfBytes (BitVec.ofNat 16 w.dropCount))) ∧
  (∀ c : CatchAll, c.bytes =
    c.mode.code :: c.retry.code :: halfBytes (BitVec.ofNat 16 c.dropCount)) ∧
  (∀ (p : Params) (m : AlertMask), paramData p m =
    halfBytes (BitVec.ofNat 16 p.responseTimeout) ++
      [byteOf p.backoff, byteOf p.idle, byteOf p.highWater, byteOf p.writeA, byteOf p.requestA,
        byteOf (32 - p.writeA), byteOf (16 - p.requestA),
        (if m.log then 1 else 0) + (if m.freeze then 2 else 0) + (if m.port then 4 else 0)]) ∧
  (∀ p : Port, p.bytes = [p.state.code, byteOf p.writeHeld, byteOf p.writeOwed,
    byteOf p.requestHeld, byteOf p.requestOwed]) ∧
  (Slot.free.bytes = List.replicate 7 0 ∧
    (∀ owner line deadline,
      (Slot.busy owner line deadline).bytes = 1 ::
        (match owner with
          | .write _ => SlotKind.write
          | .demand _ => .demand
          | .fetch _ => .fetch).code :: addrBytes line) ∧
    ∀ kind line, (Slot.orphaned kind line).bytes = 2 :: kind.code :: addrBytes line) ∧
  (∀ l : Line, l.isPending = true ↔ ∃ deadline, l.state = .pending deadline) ∧
  (∀ s : State,
    let lines (f : Option Line → Bool) : Byte :=
      byteOf (allLines.countP fun i => f s.readAhead.lines[i])
    s.statusBytes =
      [s.startUp.partState.code, s.startUp.loadResult.code, s.startUp.loadResult.partCode] ++
        timeBytes s.startUp.counter ++ [s.quiesce.code] ++ s.portA.bytes ++ s.portB.bytes ++
        [byteOf (s.tracker.countP fun e => e.port = .a),
          byteOf (s.tracker.countP fun e => e.port = .b), byteOf s.queue.length,
          (if ∃ (i : SlotId) (line : Addr), s.memPort.slots[i] = .orphaned .write line then 1
            else 0)] ++
        ([0, 1, 2, 3] : List SlotId).flatMap (fun i => (s.memPort.slots[i]).bytes) ++
        [byteOf (allStreams.countP fun k => s.readAhead.streams[k].isSome),
          lines Option.isNone, lines fun l => l.any Line.isPending,
          lines fun l => l.any fun x => decide (x.state = .fetching),
          lines fun l => l.any Line.isValid,
          byteOf s.log.records.length, byteOf s.log.overflow] ++
        allWindows.map fun n => (s.table.windows[n]).state.code) ∧
  ([PartState.loading, .running].map PartState.code = [0, 1] ∧
    [QuiesceState.running, .quiescing, .quiesced].map QuiesceState.code = [0, 1, 2] ∧
    [PortState.down, .active, .faulted].map PortState.code = [0, 1, 2] ∧
    [WindowState.disabled, .enabled, .frozen].map WindowState.code = [0, 1, 2] ∧
    [SlotKind.write, .demand, .fetch].map SlotKind.code = [0, 1, 2] ∧
    [RespKind.ok, .okPoison, .wait, .fault].map RespKind.code = [0, 1, 2, 3] ∧
    [PortId.a, .b].map PortId.code = [0, 1] ∧
    (allWindows.map WindowRef.window ++ [WindowRef.catchAll]).map WindowRef.code =
      [0, 1, 2, 3, 4, 5, 6, 7, 8] ∧
    (allWindows.map ImagePart.window ++
        [ImagePart.catchAll, ImagePart.parameterBlock]).map ImagePart.code =
      [0, 1, 2, 3, 4, 5, 6, 7, 8, 9] ∧
    [MemCause.retrySpent, .memFault, .timeout].map MemCause.code = [1, 2, 3] ∧
    [ProtocolCause.creditOverrun, .duplicateTag, .lineCrossing, .badLength, .badKind].map
      ProtocolCause.code = [0x10, 0x11, 0x12, 0x13, 0x14] ∧
    [LoadCause.noFlash, .badMarker, .badVersion, .badCount, .badCheck].map LoadCause.code =
      [0x20, 0x21, 0x22, 0x23, 0x24] ∧
    LoadResult.code .inProgress = 0 ∧ LoadResult.code .ok = 1 ∧
    LoadResult.partCode .inProgress = 0 ∧ LoadResult.partCode .ok = 0) ∧
  (∀ part : ImagePart, LoadCause.code (.badField part) = 0x25 ∧
    LoadResult.partCode (.failed (.badField part)) = part.code) ∧
  (∀ cause : LoadCause, LoadResult.code (.failed cause) = cause.code ∧
    ((∀ part, cause ≠ .badField part) → LoadResult.partCode (.failed cause) = 0)) ∧
  ∀ time : Time,
    let read (event : LogEvent) : List Byte := LogRecord.bytes { time := time, event := event }
    let head (kind flags1 flags2 : Byte) : List Byte := kind :: flags1 :: flags2 :: timeBytes time
    let zero (n : Nat) : List Byte := List.replicate n 0
    (∀ port window line length waitCount cause,
      read (.postedWriteFailed port window line length waitCount cause none) =
        head 1 0x6F 0 ++ [PortId.code port, window.code] ++ addrBytes line ++ [byteOf length, 0] ++
          halfBytes (BitVec.ofNat 16 waitCount) ++ cause.code :: zero 7 ∧
      ∀ withdrawn,
        read (.postedWriteFailed port window line length waitCount cause (some withdrawn)) =
          head 1 0xEF 0 ++ [PortId.code port, window.code] ++ addrBytes line ++ [byteOf length, 0] ++
            halfBytes (BitVec.ofNat 16 waitCount) ++ cause.code :: byteOf withdrawn :: zero 6) ∧
    (∀ port window line length tag waitCount cause,
      read (.unreportedWriteFailed port window line length tag waitCount cause) =
        head 2 0x7F 0 ++ [PortId.code port, window.code] ++ addrBytes line ++ [byteOf length, tag] ++
          halfBytes (BitVec.ofNat 16 waitCount) ++ cause.code :: zero 7) ∧
    (∀ port window line length,
      read (.writeParity port window line length none) =
        head 3 0x0F 0 ++ [PortId.code port, window.code] ++ addrBytes line ++
          byteOf length :: zero 11 ∧
      ∀ tag, read (.writeParity port window line length (some tag)) =
        head 3 0x1F 0 ++ [PortId.code port, window.code] ++ addrBytes line ++
          byteOf length :: tag :: zero 10) ∧
    (∀ slot kind line response, read (.lateResponse slot kind line response) =
      head 4 0x04 0x07 ++ zero 2 ++ addrBytes line ++ zero 6 ++
        [BitVec.ofNat 8 slot.val, kind.code, response.code, 0, 0, 0]) ∧
    (∀ slot response, read (.strayResponse slot response) =
      head 5 0 0x05 ++ zero 13 ++ [BitVec.ofNat 8 slot.val, 0, response.code, 0, 0, 0]) ∧
    (∀ port cause tag length, read (.portProtocol port cause tag length) =
      head 6 (0x41 + (if length.isSome then 0x08 else 0) + (if tag.isSome then 0x10 else 0)) 0 ++
        PortId.code port :: zero 6 ++ [length.getD 0, tag.getD 0, 0, 0, cause.code] ++ zero 7) ∧
    (∀ records entries, read (.warmResetLoss records entries) =
      head 7 0 0x30 ++ zero 17 ++ [byteOf records, byteOf entries]) ∧
    (∀ cause, (∀ part, cause ≠ .badField part) →
      read (.configFallback cause) = head 8 0x40 0 ++ zero 11 ++ cause.code :: zero 7) ∧
    (∀ part, read (.configFallback (.badField part)) =
      head 8 0x42 0 ++ 0 :: part.code :: zero 9 ++ 0x25 :: zero 7) ∧
    ∀ count, read (.slotReclaimed count) =
      head 9 0 0x08 ++ zero 16 ++ [byteOf count, 0, 0]

/-- ENABLE_WINDOW, DISABLE_WINDOW, THAW_WINDOW, SET_WINDOW and SET_CATCHALL (R12 to R15, R89, Table 1-5). -/
def Obligations.WindowCommandsMoveStates : Prop :=
  ∀ (s : State), s.serving →
    (∀ (n : Byte) (w : WindowId), n.toNat = w.val →
      let window := s.table.windows[w]
      let moved (state : WindowState) : WindowTable :=
        { s.table with windows := s.table.windows.set w { window with state := state } }
      exec (.enableWindow n) s =
        (if window.state = .disabled then
          ({ s with table := moved .enabled } : State).answering [0x04, n] [0x00]
        else s.answering [0x04, n] [0x01]) ∧
      exec (.disableWindow n) s =
        (if window.state = .disabled then s.answering [0x05, n] [0x01]
        else ({ s with
          table := moved .disabled
          readAhead := (s.readAhead.retireWhere fun st => decide (st.window = w)).topUp
            { s.fetchEnv with windows := (moved .disabled).windows } } : State).answering
            [0x05, n] [0x00]) ∧
      exec (.thawWindow n) s =
        (if window.state = .frozen then
          ({ s with table := moved .enabled } : State).answering [0x06, n] [0x00]
        else s.answering [0x06, n] [0x01]) ∧
      ∀ (record : WindowBytes) (f : WindowFields), windowFieldsOf record = some f →
        let written : Window := { state := .disabled, fields := f, dropCount := 0 }
        exec (.setWindow n record) s =
          (if window.state = .disabled then
            ({ s with
              table := { s.table with windows := s.table.windows.set w written } } : State).answering
              (0x03 :: n :: record.bytes) [0x00]
          else s.answering (0x03 :: n :: record.bytes) [0x01])) ∧
    (∀ (mode retryCode : Byte) (m : CatchMode) (limit : RetryLimit), mode = m.code →
      retryCode = limit.code →
      exec (.setCatchall mode retryCode) s =
        ({ s with table := { s.table with
          catchAll := { mode := m, retry := limit, dropCount := 0 } } } : State).answering
          [0x08, mode, retryCode] [0x00]) ∧
  [CatchMode.pass, .reject].map CatchMode.code = [0, 1] ∧
  [RetryLimit.zero, .eight, .sixtyFour, .unlimited].map RetryLimit.code = [0, 1, 2, 3]

/-- SET_PARAMS with every value in range (R143, R173, R174) and SET_ALERT_MASK (R175). -/
def Obligations.ParametersReplaced : Prop :=
  ∀ s : State, s.serving →
    (∀ (b : ParamBytes) (new : Params), paramsOf b = some new →
      let command := (0x0A : Byte) :: b.bytes
      let changed := new.writeA ≠ s.startUp.params.writeA ∨
        new.requestA ≠ s.startUp.params.requestA
      let barred := s.portA.state = .active ∨ s.portB.state = .active ∨
        new.writeA < queuedRecords s.queue .a ∨ 32 - new.writeA < queuedRecords s.queue .b
      let expired : ReadAhead :=
        if new.idle = s.startUp.params.idle then s.readAhead
        else (s.readAhead.retireWhere fun st =>
          decide (new.idle ≤ (s.startUp.counter - st.lastUse).toNat)).topUp s.fetchEnv
      (changed → barred → exec (.setParams b) s = s.answering command [0x01]) ∧
      (changed → ¬ barred → exec (.setParams b) s = ({ s with
        startUp := { s.startUp with params := new }
        readAhead := expired
        portA := { s.portA with
          writeOwed := new.writeA - queuedRecords s.queue .a, requestOwed := new.requestA }
        portB := { s.portB with
          writeOwed := 32 - new.writeA - queuedRecords s.queue .b
          requestOwed := 16 - new.requestA } } : State).answering command [0x00]) ∧
      (¬ changed → exec (.setParams b) s = ({ s with
        startUp := { s.startUp with params := new }
        readAhead := expired } : State).answering command [0x00])) ∧
    (∀ mask : Byte, mask.toNat < 8 →
      exec (.setAlertMask mask) s = ({ s with
        startUp := { s.startUp with
          mask := { log := mask.getLsbD 0, freeze := mask.getLsbD 1,
                    port := mask.getLsbD 2 } } } : State).answering [0x0B, mask] [0x00]) ∧
    (∀ params : Params, params.writeAllocation .a = params.writeA ∧
      params.writeAllocation .b = 32 - params.writeA ∧
      params.requestAllocation .a = params.requestA ∧
      params.requestAllocation .b = 16 - params.requestA) ∧
    ∀ (queue : List WriteRecord) (p : PortId),
      queuedRecords queue p = (queue.filter fun r => decide (r.port = p)).length

/-- POP_LOG (R158), CLEAR_OVERFLOW (R159), and what an append does (R155). -/
def Obligations.LogPoppedClearedAppended : Prop :=
  (∀ s : State, s.serving →
    (∀ oldest rest, s.log.records = oldest :: rest →
      exec .popLog s = ({ s with log := { records := rest, overflow := s.log.overflow } }
        : State).answering [0x0D] [0x00]) ∧
    (s.log.records = [] → exec .popLog s = s.answering [0x0D] [0x01]) ∧
    exec .clearOverflow s = ({ s with log := { records := s.log.records, overflow := 0 } }
      : State).answering [0x0E] [0x00]) ∧
  (∀ (l : ErrorLog) (r : LogRecord),
    (l.records.length < 8 →
      l.append r = { records := l.records ++ [r], overflow := l.overflow }) ∧
    (8 ≤ l.records.length →
      l.append r = { records := l.records, overflow := min (l.overflow + 1) 255 }))

/-- RECLAIM_SLOTS (R126, R177). -/
def Obligations.ReclaimFreesOrphanedSlots : Prop :=
  ∀ s : State, s.serving →
    ∃ u : State,
      exec .reclaimSlots s = u.answering [0x0F]
        [0x00, BitVec.ofNat 8 (s.memPort.count Slot.isOrphaned)] ∧
      (∀ i : SlotId, u.memPort.slots[i] =
        (match s.memPort.slots[i] with
          | .orphaned _ _ => .free
          | slot => slot)) ∧
      u.memPort.halted = false ∧
      u.tracker = s.tracker.map (weighEntry s.queue []) ∧
      u.log = (if s.memPort.count Slot.isOrphaned = 0 then s.log
        else s.log.append
          { time := s.startUp.counter,
            event := .slotReclaimed (s.memPort.count Slot.isOrphaned) }) ∧
      u = { s with
        memPort := { s.memPort with slots := u.memPort.slots }
        tracker := u.tracker, log := u.log }

/-- QUIESCE and RESUME (R178, R179, R181). -/
def Obligations.QuiesceAndResume : Prop :=
  ∀ s : State, s.serving →
    (s.quiesce = .running →
      (s.queue = [] ∧ s.tracker = [] ∧ (∀ i : SlotId, (s.memPort.slots[i]).isBusy = false) →
        exec .quiesce s =
          ({ s with quiesce := .quiesced } : State).answering [0x10] [0x00, 0x02]) ∧
      (¬ (s.queue = [] ∧ s.tracker = [] ∧ ∀ i : SlotId, (s.memPort.slots[i]).isBusy = false) →
        exec .quiesce s =
          ({ s with quiesce := .quiescing } : State).answering [0x10] [0x00, 0x01])) ∧
    (s.quiesce ≠ .running → exec .quiesce s = s.answering [0x10] [0x01]) ∧
    (s.quiesce ≠ .running →
      exec .resume s = ({ s with quiesce := .running } : State).answering [0x11] [0x00]) ∧
    (s.quiesce = .running → exec .resume s = s.answering [0x11] [0x01])

/-! ## Laws -/

/-- Every command part decodes to the command it was made from, with every argument byte (Table 11-6). -/
def Obligations.DecodeOfCommandPart : Prop :=
  ∀ i : Instr, i.wellFormed = true → i.commandPart ≠ [] →
    ∀ after : List Byte, decodeCommandPart (i.commandPart ++ after) = some i

/-- Every law holds right after the release of the power-on reset. -/
def Obligations.LawsHoldAtReset : Prop :=
  State.reset.logBounded = true ∧ State.reset.alertFollows = true ∧
  State.reset.paramsInRange = true ∧ State.reset.tableSound = true ∧
  State.reset.frozenDrained = true ∧ State.reset.onlyHeadMoves = true ∧
  State.reset.quiesceFollows = true ∧ State.reset.passedOverBounded = true ∧
  State.reset.oneWriteSlot = true ∧ State.reset.creditsWhole = true ∧
  State.reset.tagsUnique = true ∧ State.reset.readsWeighed = true ∧
  State.reset.poolBehindQueue = true ∧ State.reset.workSound = true

/-- The log stays within its bounds (R155), and the alert line follows its causes at every step (R160). -/
def Obligations.StepKeepsLogAndAlert : Prop :=
  StepKeeps State.logBounded ∧ StepKeeps State.alertFollows

/-- The configuration stays valid (R3, R192), a FROZEN window has fault action FREEZE and no record in the queue
(R39), and only the head leaves QUEUED (R27). -/
def Obligations.StepKeepsWindowsAndQueueSound : Prop :=
  StepKeeps State.paramsInRange ∧ StepKeeps State.tableSound ∧
  StepKeeps (fun s => s.tableSound && s.frozenDrained) ∧ StepKeeps State.onlyHeadMoves

/-- The quiesce state follows the work held (R179, R180), the passed-over count never passes 4 (R124), and at
most one slot holds a write (R27). -/
def Obligations.StepKeepsQuiesceAndSlots : Prop :=
  StepKeeps State.quiesceFollows ∧ StepKeeps State.passedOverBounded ∧
  StepKeeps State.oneWriteSlot

/-- The credit laws of R41 and R139, and with them the capacities of R22 and R46. -/
def Obligations.StepKeepsCreditsWhole : Prop :=
  StepKeeps State.creditsWhole ∧
  ∀ s : State, s.creditsWhole = true → s.queue.length ≤ 32 ∧ s.tracker.length ≤ 16

/-- Places and tags stay unique (R47, R48) and no ineligible read is READY (R51, R52). -/
def Obligations.StepKeepsReadOrdering : Prop :=
  StepKeeps State.orderSound ∧ StepKeeps (fun s => s.orderSound && s.tagsUnique) ∧
  StepKeeps State.readsWeighed

/-- The pool's law (R70) and the law of R80 and R86: no VALID line holds a target line that a queued write
targets. -/
def Obligations.StepKeepsPoolCoherent : Prop :=
  StepKeeps State.poolSound ∧ StepKeeps (fun s => s.workSound && s.poolBehindQueue)

/-- Every piece of work in flight stays held in exactly one place, and each DONE entry is on its port's list
once (R63, R65, R107). -/
def Obligations.StepKeepsWorkHeldOnce : Prop :=
  StepKeeps State.workSound

/-- The laws of R51 and R80 at the grant: no demand read and no fetch is issued while a record of its horizon
with its target line is queued, or an ORPHANED write slot holds that line. -/
def Obligations.GrantWaitsForEarlierWrites : Prop :=
  ∀ s : State, s.readsWeighed = true →
    (∀ e r, s.chooseGrant = some (.demand e r) →
      (∀ w ∈ s.queue, w.place ∈ r.horizon → w.line ≠ r.line) ∧
      (∀ (i : SlotId) (line : Addr), s.memPort.slots[i] = .orphaned .write line → line ≠ r.line) ∧
      (r.order = .strict → ∀ w ∈ s.queue, w.place ∈ r.horizon → w.port ≠ e.port)) ∧
    (∀ k l, s.chooseGrant = some (.fetch k) → s.readAhead.lines[k] = some l →
      (∀ w ∈ s.queue, w.place ∈ l.horizon → w.line ≠ l.target) ∧
      (∀ (i : SlotId) (line : Addr), s.memPort.slots[i] = .orphaned .write line →
        line ≠ l.target))
end

