-- ==== Sys2Proof/Laws/State.lean ====
section
/-! SUPPORT. What each shared update leaves of each field of State: one lemma for each field and update. -/

namespace Sys2Proof.Machine

namespace State

variable (s : State)


/-! ### setPort -/

@[simp] theorem setPort_pins (p : PortId) (x : Port) : (s.setPort p x).pins = s.pins := by
  cases p <;> rfl
@[simp] theorem setPort_startUp (p : PortId) (x : Port) : (s.setPort p x).startUp = s.startUp := by
  cases p <;> rfl
@[simp] theorem setPort_table (p : PortId) (x : Port) : (s.setPort p x).table = s.table := by
  cases p <;> rfl
@[simp] theorem setPort_queue (p : PortId) (x : Port) : (s.setPort p x).queue = s.queue := by
  cases p <;> rfl
@[simp] theorem setPort_tracker (p : PortId) (x : Port) : (s.setPort p x).tracker = s.tracker := by
  cases p <;> rfl
@[simp] theorem setPort_nextPlace (p : PortId) (x : Port) :
    (s.setPort p x).nextPlace = s.nextPlace := by
  cases p <;> rfl
@[simp] theorem setPort_readAhead (p : PortId) (x : Port) :
    (s.setPort p x).readAhead = s.readAhead := by
  cases p <;> rfl
@[simp] theorem setPort_memPort (p : PortId) (x : Port) : (s.setPort p x).memPort = s.memPort := by
  cases p <;> rfl
@[simp] theorem setPort_log (p : PortId) (x : Port) : (s.setPort p x).log = s.log := by
  cases p <;> rfl
@[simp] theorem setPort_alertLine (p : PortId) (x : Port) :
    (s.setPort p x).alertLine = s.alertLine := by
  cases p <;> rfl
@[simp] theorem setPort_maint (p : PortId) (x : Port) : (s.setPort p x).maint = s.maint := by
  cases p <;> rfl
@[simp] theorem setPort_quiesce (p : PortId) (x : Port) : (s.setPort p x).quiesce = s.quiesce := by
  cases p <;> rfl
@[simp] theorem setPort_pending (p : PortId) (x : Port) : (s.setPort p x).pending = s.pending := by
  cases p <;> rfl
@[simp] theorem setPort_images (p : PortId) (x : Port) : (s.setPort p x).images = s.images := by
  cases p <;> rfl

/-! ### setSlot -/

@[simp] theorem setSlot_pins (i : SlotId) (x : Slot) : (s.setSlot i x).pins = s.pins := rfl
@[simp] theorem setSlot_startUp (i : SlotId) (x : Slot) : (s.setSlot i x).startUp = s.startUp := rfl
@[simp] theorem setSlot_table (i : SlotId) (x : Slot) : (s.setSlot i x).table = s.table := rfl
@[simp] theorem setSlot_queue (i : SlotId) (x : Slot) : (s.setSlot i x).queue = s.queue := rfl
@[simp] theorem setSlot_tracker (i : SlotId) (x : Slot) : (s.setSlot i x).tracker = s.tracker := rfl
@[simp] theorem setSlot_nextPlace (i : SlotId) (x : Slot) :
    (s.setSlot i x).nextPlace = s.nextPlace := rfl
@[simp] theorem setSlot_readAhead (i : SlotId) (x : Slot) :
    (s.setSlot i x).readAhead = s.readAhead := rfl
@[simp] theorem setSlot_portA (i : SlotId) (x : Slot) : (s.setSlot i x).portA = s.portA := rfl
@[simp] theorem setSlot_portB (i : SlotId) (x : Slot) : (s.setSlot i x).portB = s.portB := rfl
@[simp] theorem setSlot_log (i : SlotId) (x : Slot) : (s.setSlot i x).log = s.log := rfl
@[simp] theorem setSlot_alertLine (i : SlotId) (x : Slot) :
    (s.setSlot i x).alertLine = s.alertLine := rfl
@[simp] theorem setSlot_maint (i : SlotId) (x : Slot) : (s.setSlot i x).maint = s.maint := rfl
@[simp] theorem setSlot_quiesce (i : SlotId) (x : Slot) : (s.setSlot i x).quiesce = s.quiesce := rfl
@[simp] theorem setSlot_pending (i : SlotId) (x : Slot) : (s.setSlot i x).pending = s.pending := rfl
@[simp] theorem setSlot_images (i : SlotId) (x : Slot) : (s.setSlot i x).images = s.images := rfl

/-! ### logEvent -/

@[simp] theorem logEvent_pins (e : LogEvent) : (s.logEvent e).pins = s.pins := rfl
@[simp] theorem logEvent_startUp (e : LogEvent) : (s.logEvent e).startUp = s.startUp := rfl
@[simp] theorem logEvent_table (e : LogEvent) : (s.logEvent e).table = s.table := rfl
@[simp] theorem logEvent_queue (e : LogEvent) : (s.logEvent e).queue = s.queue := rfl
@[simp] theorem logEvent_tracker (e : LogEvent) : (s.logEvent e).tracker = s.tracker := rfl
@[simp] theorem logEvent_nextPlace (e : LogEvent) : (s.logEvent e).nextPlace = s.nextPlace := rfl
@[simp] theorem logEvent_readAhead (e : LogEvent) : (s.logEvent e).readAhead = s.readAhead := rfl
@[simp] theorem logEvent_memPort (e : LogEvent) : (s.logEvent e).memPort = s.memPort := rfl
@[simp] theorem logEvent_portA (e : LogEvent) : (s.logEvent e).portA = s.portA := rfl
@[simp] theorem logEvent_portB (e : LogEvent) : (s.logEvent e).portB = s.portB := rfl
@[simp] theorem logEvent_alertLine (e : LogEvent) : (s.logEvent e).alertLine = s.alertLine := rfl
@[simp] theorem logEvent_maint (e : LogEvent) : (s.logEvent e).maint = s.maint := rfl
@[simp] theorem logEvent_quiesce (e : LogEvent) : (s.logEvent e).quiesce = s.quiesce := rfl
@[simp] theorem logEvent_pending (e : LogEvent) : (s.logEvent e).pending = s.pending := rfl
@[simp] theorem logEvent_images (e : LogEvent) : (s.logEvent e).images = s.images := rfl

/-! ### addEntry -/

@[simp] theorem addEntry_pins (e : Entry) : (s.addEntry e).pins = s.pins := rfl
@[simp] theorem addEntry_startUp (e : Entry) : (s.addEntry e).startUp = s.startUp := rfl
@[simp] theorem addEntry_table (e : Entry) : (s.addEntry e).table = s.table := rfl
@[simp] theorem addEntry_queue (e : Entry) : (s.addEntry e).queue = s.queue := rfl
@[simp] theorem addEntry_readAhead (e : Entry) : (s.addEntry e).readAhead = s.readAhead := rfl
@[simp] theorem addEntry_memPort (e : Entry) : (s.addEntry e).memPort = s.memPort := rfl
@[simp] theorem addEntry_portA (e : Entry) : (s.addEntry e).portA = s.portA := rfl
@[simp] theorem addEntry_portB (e : Entry) : (s.addEntry e).portB = s.portB := rfl
@[simp] theorem addEntry_log (e : Entry) : (s.addEntry e).log = s.log := rfl
@[simp] theorem addEntry_alertLine (e : Entry) : (s.addEntry e).alertLine = s.alertLine := rfl
@[simp] theorem addEntry_maint (e : Entry) : (s.addEntry e).maint = s.maint := rfl
@[simp] theorem addEntry_quiesce (e : Entry) : (s.addEntry e).quiesce = s.quiesce := rfl
@[simp] theorem addEntry_pending (e : Entry) : (s.addEntry e).pending = s.pending := rfl
@[simp] theorem addEntry_images (e : Entry) : (s.addEntry e).images = s.images := rfl

/-! ### weighReads -/

@[simp] theorem weighReads_pins : (s.weighReads).pins = s.pins := rfl
@[simp] theorem weighReads_startUp : (s.weighReads).startUp = s.startUp := rfl
@[simp] theorem weighReads_table : (s.weighReads).table = s.table := rfl
@[simp] theorem weighReads_queue : (s.weighReads).queue = s.queue := rfl
@[simp] theorem weighReads_nextPlace : (s.weighReads).nextPlace = s.nextPlace := rfl
@[simp] theorem weighReads_readAhead : (s.weighReads).readAhead = s.readAhead := rfl
@[simp] theorem weighReads_memPort : (s.weighReads).memPort = s.memPort := rfl
@[simp] theorem weighReads_portA : (s.weighReads).portA = s.portA := rfl
@[simp] theorem weighReads_portB : (s.weighReads).portB = s.portB := rfl
@[simp] theorem weighReads_log : (s.weighReads).log = s.log := rfl
@[simp] theorem weighReads_alertLine : (s.weighReads).alertLine = s.alertLine := rfl
@[simp] theorem weighReads_maint : (s.weighReads).maint = s.maint := rfl
@[simp] theorem weighReads_quiesce : (s.weighReads).quiesce = s.quiesce := rfl
@[simp] theorem weighReads_pending : (s.weighReads).pending = s.pending := rfl
@[simp] theorem weighReads_images : (s.weighReads).images = s.images := rfl

/-! ### weighQuiesce -/

@[simp] theorem weighQuiesce_pins : (s.weighQuiesce).pins = s.pins := by
  unfold State.weighQuiesce; split <;> rfl
@[simp] theorem weighQuiesce_startUp : (s.weighQuiesce).startUp = s.startUp := by
  unfold State.weighQuiesce; split <;> rfl
@[simp] theorem weighQuiesce_table : (s.weighQuiesce).table = s.table := by
  unfold State.weighQuiesce; split <;> rfl
@[simp] theorem weighQuiesce_queue : (s.weighQuiesce).queue = s.queue := by
  unfold State.weighQuiesce; split <;> rfl
@[simp] theorem weighQuiesce_tracker : (s.weighQuiesce).tracker = s.tracker := by
  unfold State.weighQuiesce; split <;> rfl
@[simp] theorem weighQuiesce_nextPlace : (s.weighQuiesce).nextPlace = s.nextPlace := by
  unfold State.weighQuiesce; split <;> rfl
@[simp] theorem weighQuiesce_readAhead : (s.weighQuiesce).readAhead = s.readAhead := by
  unfold State.weighQuiesce; split <;> rfl
@[simp] theorem weighQuiesce_memPort : (s.weighQuiesce).memPort = s.memPort := by
  unfold State.weighQuiesce; split <;> rfl
@[simp] theorem weighQuiesce_portA : (s.weighQuiesce).portA = s.portA := by
  unfold State.weighQuiesce; split <;> rfl
@[simp] theorem weighQuiesce_portB : (s.weighQuiesce).portB = s.portB := by
  unfold State.weighQuiesce; split <;> rfl
@[simp] theorem weighQuiesce_log : (s.weighQuiesce).log = s.log := by
  unfold State.weighQuiesce; split <;> rfl
@[simp] theorem weighQuiesce_alertLine : (s.weighQuiesce).alertLine = s.alertLine := by
  unfold State.weighQuiesce; split <;> rfl
@[simp] theorem weighQuiesce_maint : (s.weighQuiesce).maint = s.maint := by
  unfold State.weighQuiesce; split <;> rfl
@[simp] theorem weighQuiesce_pending : (s.weighQuiesce).pending = s.pending := by
  unfold State.weighQuiesce; split <;> rfl
@[simp] theorem weighQuiesce_images : (s.weighQuiesce).images = s.images := by
  unfold State.weighQuiesce; split <;> rfl

/-! ### driveAlert -/

@[simp] theorem driveAlert_pins : (s.driveAlert).pins = s.pins := rfl
@[simp] theorem driveAlert_startUp : (s.driveAlert).startUp = s.startUp := rfl
@[simp] theorem driveAlert_table : (s.driveAlert).table = s.table := rfl
@[simp] theorem driveAlert_queue : (s.driveAlert).queue = s.queue := rfl
@[simp] theorem driveAlert_tracker : (s.driveAlert).tracker = s.tracker := rfl
@[simp] theorem driveAlert_nextPlace : (s.driveAlert).nextPlace = s.nextPlace := rfl
@[simp] theorem driveAlert_readAhead : (s.driveAlert).readAhead = s.readAhead := rfl
@[simp] theorem driveAlert_memPort : (s.driveAlert).memPort = s.memPort := rfl
@[simp] theorem driveAlert_portA : (s.driveAlert).portA = s.portA := rfl
@[simp] theorem driveAlert_portB : (s.driveAlert).portB = s.portB := rfl
@[simp] theorem driveAlert_log : (s.driveAlert).log = s.log := rfl
@[simp] theorem driveAlert_maint : (s.driveAlert).maint = s.maint := rfl
@[simp] theorem driveAlert_quiesce : (s.driveAlert).quiesce = s.quiesce := rfl
@[simp] theorem driveAlert_pending : (s.driveAlert).pending = s.pending := rfl
@[simp] theorem driveAlert_images : (s.driveAlert).images = s.images := rfl

/-! ### settle -/

@[simp] theorem settle_pins : (s.settle).pins = s.pins := by
  simp [State.settle]
@[simp] theorem settle_startUp : (s.settle).startUp = s.startUp := by
  simp [State.settle]
@[simp] theorem settle_table : (s.settle).table = s.table := by
  simp [State.settle]
@[simp] theorem settle_queue : (s.settle).queue = s.queue := by
  simp [State.settle]
@[simp] theorem settle_tracker : (s.settle).tracker = s.tracker := by
  simp [State.settle]
@[simp] theorem settle_nextPlace : (s.settle).nextPlace = s.nextPlace := by
  simp [State.settle]
@[simp] theorem settle_readAhead : (s.settle).readAhead = s.readAhead := by
  simp [State.settle]
@[simp] theorem settle_memPort : (s.settle).memPort = s.memPort := by
  simp [State.settle]
@[simp] theorem settle_portA : (s.settle).portA = s.portA := by
  simp [State.settle]
@[simp] theorem settle_portB : (s.settle).portB = s.portB := by
  simp [State.settle]
@[simp] theorem settle_log : (s.settle).log = s.log := by
  simp [State.settle]
@[simp] theorem settle_maint : (s.settle).maint = s.maint := by
  simp [State.settle]
@[simp] theorem settle_pending : (s.settle).pending = s.pending := by
  simp [State.settle]
@[simp] theorem settle_images : (s.settle).images = s.images := by
  simp [State.settle]

/-! ### oweWrite -/

@[simp] theorem oweWrite_pins (p : PortId) : (s.oweWrite p).pins = s.pins := by
  simp [State.oweWrite]
@[simp] theorem oweWrite_startUp (p : PortId) : (s.oweWrite p).startUp = s.startUp := by
  simp [State.oweWrite]
@[simp] theorem oweWrite_table (p : PortId) : (s.oweWrite p).table = s.table := by
  simp [State.oweWrite]
@[simp] theorem oweWrite_queue (p : PortId) : (s.oweWrite p).queue = s.queue := by
  simp [State.oweWrite]
@[simp] theorem oweWrite_tracker (p : PortId) : (s.oweWrite p).tracker = s.tracker := by
  simp [State.oweWrite]
@[simp] theorem oweWrite_nextPlace (p : PortId) : (s.oweWrite p).nextPlace = s.nextPlace := by
  simp [State.oweWrite]
@[simp] theorem oweWrite_readAhead (p : PortId) : (s.oweWrite p).readAhead = s.readAhead := by
  simp [State.oweWrite]
@[simp] theorem oweWrite_memPort (p : PortId) : (s.oweWrite p).memPort = s.memPort := by
  simp [State.oweWrite]
@[simp] theorem oweWrite_log (p : PortId) : (s.oweWrite p).log = s.log := by
  simp [State.oweWrite]
@[simp] theorem oweWrite_alertLine (p : PortId) : (s.oweWrite p).alertLine = s.alertLine := by
  simp [State.oweWrite]
@[simp] theorem oweWrite_maint (p : PortId) : (s.oweWrite p).maint = s.maint := by
  simp [State.oweWrite]
@[simp] theorem oweWrite_quiesce (p : PortId) : (s.oweWrite p).quiesce = s.quiesce := by
  simp [State.oweWrite]
@[simp] theorem oweWrite_pending (p : PortId) : (s.oweWrite p).pending = s.pending := by
  simp [State.oweWrite]
@[simp] theorem oweWrite_images (p : PortId) : (s.oweWrite p).images = s.images := by
  simp [State.oweWrite]

/-! ### linkUp -/

@[simp] theorem linkUp_pins (p : PortId) : (s.linkUp p).pins = s.pins := by
  unfold State.linkUp; split <;> simp
@[simp] theorem linkUp_startUp (p : PortId) : (s.linkUp p).startUp = s.startUp := by
  unfold State.linkUp; split <;> simp
@[simp] theorem linkUp_table (p : PortId) : (s.linkUp p).table = s.table := by
  unfold State.linkUp; split <;> simp
@[simp] theorem linkUp_queue (p : PortId) : (s.linkUp p).queue = s.queue := by
  unfold State.linkUp; split <;> simp
@[simp] theorem linkUp_tracker (p : PortId) : (s.linkUp p).tracker = s.tracker := by
  unfold State.linkUp; split <;> simp
@[simp] theorem linkUp_nextPlace (p : PortId) : (s.linkUp p).nextPlace = s.nextPlace := by
  unfold State.linkUp; split <;> simp
@[simp] theorem linkUp_readAhead (p : PortId) : (s.linkUp p).readAhead = s.readAhead := by
  unfold State.linkUp; split <;> simp
@[simp] theorem linkUp_memPort (p : PortId) : (s.linkUp p).memPort = s.memPort := by
  unfold State.linkUp; split <;> simp
@[simp] theorem linkUp_log (p : PortId) : (s.linkUp p).log = s.log := by
  unfold State.linkUp; split <;> simp
@[simp] theorem linkUp_alertLine (p : PortId) : (s.linkUp p).alertLine = s.alertLine := by
  unfold State.linkUp; split <;> simp
@[simp] theorem linkUp_maint (p : PortId) : (s.linkUp p).maint = s.maint := by
  unfold State.linkUp; split <;> simp
@[simp] theorem linkUp_quiesce (p : PortId) : (s.linkUp p).quiesce = s.quiesce := by
  unfold State.linkUp; split <;> simp
@[simp] theorem linkUp_pending (p : PortId) : (s.linkUp p).pending = s.pending := by
  unfold State.linkUp; split <;> simp
@[simp] theorem linkUp_images (p : PortId) : (s.linkUp p).images = s.images := by
  unfold State.linkUp; split <;> simp

/-! ### finish -/

@[simp] theorem finish_pins (place : Nat) (x : Status) (data : List Byte) :
    (s.finish place x data).pins = s.pins := by
  unfold State.finish; split <;> simp
@[simp] theorem finish_startUp (place : Nat) (x : Status) (data : List Byte) :
    (s.finish place x data).startUp = s.startUp := by
  unfold State.finish; split <;> simp
@[simp] theorem finish_table (place : Nat) (x : Status) (data : List Byte) :
    (s.finish place x data).table = s.table := by
  unfold State.finish; split <;> simp
@[simp] theorem finish_queue (place : Nat) (x : Status) (data : List Byte) :
    (s.finish place x data).queue = s.queue := by
  unfold State.finish; split <;> simp
@[simp] theorem finish_nextPlace (place : Nat) (x : Status) (data : List Byte) :
    (s.finish place x data).nextPlace = s.nextPlace := by
  unfold State.finish; split <;> simp
@[simp] theorem finish_readAhead (place : Nat) (x : Status) (data : List Byte) :
    (s.finish place x data).readAhead = s.readAhead := by
  unfold State.finish; split <;> simp
@[simp] theorem finish_memPort (place : Nat) (x : Status) (data : List Byte) :
    (s.finish place x data).memPort = s.memPort := by
  unfold State.finish; split <;> simp
@[simp] theorem finish_log (place : Nat) (x : Status) (data : List Byte) :
    (s.finish place x data).log = s.log := by
  unfold State.finish; split <;> simp
@[simp] theorem finish_alertLine (place : Nat) (x : Status) (data : List Byte) :
    (s.finish place x data).alertLine = s.alertLine := by
  unfold State.finish; split <;> simp
@[simp] theorem finish_maint (place : Nat) (x : Status) (data : List Byte) :
    (s.finish place x data).maint = s.maint := by
  unfold State.finish; split <;> simp
@[simp] theorem finish_quiesce (place : Nat) (x : Status) (data : List Byte) :
    (s.finish place x data).quiesce = s.quiesce := by
  unfold State.finish; split <;> simp
@[simp] theorem finish_pending (place : Nat) (x : Status) (data : List Byte) :
    (s.finish place x data).pending = s.pending := by
  unfold State.finish; split <;> simp
@[simp] theorem finish_images (place : Nat) (x : Status) (data : List Byte) :
    (s.finish place x data).images = s.images := by
  unfold State.finish; split <;> simp

/-! ### finishRead -/

@[simp] theorem finishRead_pins (poison : Bool) (line : LineData) (place : Nat) :
    (s.finishRead poison line place).pins = s.pins := by
  unfold State.finishRead; split <;> simp
@[simp] theorem finishRead_startUp (poison : Bool) (line : LineData) (place : Nat) :
    (s.finishRead poison line place).startUp = s.startUp := by
  unfold State.finishRead; split <;> simp
@[simp] theorem finishRead_table (poison : Bool) (line : LineData) (place : Nat) :
    (s.finishRead poison line place).table = s.table := by
  unfold State.finishRead; split <;> simp
@[simp] theorem finishRead_queue (poison : Bool) (line : LineData) (place : Nat) :
    (s.finishRead poison line place).queue = s.queue := by
  unfold State.finishRead; split <;> simp
@[simp] theorem finishRead_nextPlace (poison : Bool) (line : LineData) (place : Nat) :
    (s.finishRead poison line place).nextPlace = s.nextPlace := by
  unfold State.finishRead; split <;> simp
@[simp] theorem finishRead_readAhead (poison : Bool) (line : LineData) (place : Nat) :
    (s.finishRead poison line place).readAhead = s.readAhead := by
  unfold State.finishRead; split <;> simp
@[simp] theorem finishRead_memPort (poison : Bool) (line : LineData) (place : Nat) :
    (s.finishRead poison line place).memPort = s.memPort := by
  unfold State.finishRead; split <;> simp
@[simp] theorem finishRead_log (poison : Bool) (line : LineData) (place : Nat) :
    (s.finishRead poison line place).log = s.log := by
  unfold State.finishRead; split <;> simp
@[simp] theorem finishRead_alertLine (poison : Bool) (line : LineData) (place : Nat) :
    (s.finishRead poison line place).alertLine = s.alertLine := by
  unfold State.finishRead; split <;> simp
@[simp] theorem finishRead_maint (poison : Bool) (line : LineData) (place : Nat) :
    (s.finishRead poison line place).maint = s.maint := by
  unfold State.finishRead; split <;> simp
@[simp] theorem finishRead_quiesce (poison : Bool) (line : LineData) (place : Nat) :
    (s.finishRead poison line place).quiesce = s.quiesce := by
  unfold State.finishRead; split <;> simp
@[simp] theorem finishRead_pending (poison : Bool) (line : LineData) (place : Nat) :
    (s.finishRead poison line place).pending = s.pending := by
  unfold State.finishRead; split <;> simp
@[simp] theorem finishRead_images (poison : Bool) (line : LineData) (place : Nat) :
    (s.finishRead poison line place).images = s.images := by
  unfold State.finishRead; split <;> simp

/-! ### finishFence -/

@[simp] theorem finishFence_pins (place : Nat) (f : FenceFields) :
    (s.finishFence place f).pins = s.pins := by
  unfold State.finishFence; dsimp only; split <;> simp
@[simp] theorem finishFence_startUp (place : Nat) (f : FenceFields) :
    (s.finishFence place f).startUp = s.startUp := by
  unfold State.finishFence; dsimp only; split <;> simp
@[simp] theorem finishFence_table (place : Nat) (f : FenceFields) :
    (s.finishFence place f).table = s.table := by
  unfold State.finishFence; dsimp only; split <;> simp
@[simp] theorem finishFence_queue (place : Nat) (f : FenceFields) :
    (s.finishFence place f).queue = s.queue := by
  unfold State.finishFence; dsimp only; split <;> simp
@[simp] theorem finishFence_nextPlace (place : Nat) (f : FenceFields) :
    (s.finishFence place f).nextPlace = s.nextPlace := by
  unfold State.finishFence; dsimp only; split <;> simp
@[simp] theorem finishFence_memPort (place : Nat) (f : FenceFields) :
    (s.finishFence place f).memPort = s.memPort := by
  unfold State.finishFence; dsimp only; split <;> simp
@[simp] theorem finishFence_log (place : Nat) (f : FenceFields) :
    (s.finishFence place f).log = s.log := by
  unfold State.finishFence; dsimp only; split <;> simp
@[simp] theorem finishFence_alertLine (place : Nat) (f : FenceFields) :
    (s.finishFence place f).alertLine = s.alertLine := by
  unfold State.finishFence; dsimp only; split <;> simp
@[simp] theorem finishFence_maint (place : Nat) (f : FenceFields) :
    (s.finishFence place f).maint = s.maint := by
  unfold State.finishFence; dsimp only; split <;> simp
@[simp] theorem finishFence_quiesce (place : Nat) (f : FenceFields) :
    (s.finishFence place f).quiesce = s.quiesce := by
  unfold State.finishFence; dsimp only; split <;> simp
@[simp] theorem finishFence_pending (place : Nat) (f : FenceFields) :
    (s.finishFence place f).pending = s.pending := by
  unfold State.finishFence; dsimp only; split <;> simp
@[simp] theorem finishFence_images (place : Nat) (f : FenceFields) :
    (s.finishFence place f).images = s.images := by
  unfold State.finishFence; dsimp only; split <;> simp

/-! ### endEntry -/

@[simp] theorem endEntry_pins (r : Report) : (s.endEntry r).pins = s.pins := by
  unfold State.endEntry; split <;> simp
@[simp] theorem endEntry_startUp (r : Report) : (s.endEntry r).startUp = s.startUp := by
  unfold State.endEntry; split <;> simp
@[simp] theorem endEntry_table (r : Report) : (s.endEntry r).table = s.table := by
  unfold State.endEntry; split <;> simp
@[simp] theorem endEntry_queue (r : Report) : (s.endEntry r).queue = s.queue := by
  unfold State.endEntry; split <;> simp
@[simp] theorem endEntry_nextPlace (r : Report) : (s.endEntry r).nextPlace = s.nextPlace := by
  unfold State.endEntry; split <;> simp
@[simp] theorem endEntry_readAhead (r : Report) : (s.endEntry r).readAhead = s.readAhead := by
  unfold State.endEntry; split <;> simp
@[simp] theorem endEntry_memPort (r : Report) : (s.endEntry r).memPort = s.memPort := by
  unfold State.endEntry; split <;> simp
@[simp] theorem endEntry_log (r : Report) : (s.endEntry r).log = s.log := by
  unfold State.endEntry; split <;> simp
@[simp] theorem endEntry_alertLine (r : Report) : (s.endEntry r).alertLine = s.alertLine := by
  unfold State.endEntry; split <;> simp
@[simp] theorem endEntry_maint (r : Report) : (s.endEntry r).maint = s.maint := by
  unfold State.endEntry; split <;> simp
@[simp] theorem endEntry_quiesce (r : Report) : (s.endEntry r).quiesce = s.quiesce := by
  unfold State.endEntry; split <;> simp
@[simp] theorem endEntry_pending (r : Report) : (s.endEntry r).pending = s.pending := by
  unfold State.endEntry; split <;> simp
@[simp] theorem endEntry_images (r : Report) : (s.endEntry r).images = s.images := by
  unfold State.endEntry; split <;> simp

/-! ### answered -/

@[simp] theorem answered_pins (command : List Byte) (a : Answer) :
    (s.answered command a).pins = s.pins := rfl
@[simp] theorem answered_startUp (command : List Byte) (a : Answer) :
    (s.answered command a).startUp = s.startUp := rfl
@[simp] theorem answered_table (command : List Byte) (a : Answer) :
    (s.answered command a).table = s.table := rfl
@[simp] theorem answered_queue (command : List Byte) (a : Answer) :
    (s.answered command a).queue = s.queue := rfl
@[simp] theorem answered_tracker (command : List Byte) (a : Answer) :
    (s.answered command a).tracker = s.tracker := rfl
@[simp] theorem answered_nextPlace (command : List Byte) (a : Answer) :
    (s.answered command a).nextPlace = s.nextPlace := rfl
@[simp] theorem answered_readAhead (command : List Byte) (a : Answer) :
    (s.answered command a).readAhead = s.readAhead := rfl
@[simp] theorem answered_memPort (command : List Byte) (a : Answer) :
    (s.answered command a).memPort = s.memPort := rfl
@[simp] theorem answered_portA (command : List Byte) (a : Answer) :
    (s.answered command a).portA = s.portA := rfl
@[simp] theorem answered_portB (command : List Byte) (a : Answer) :
    (s.answered command a).portB = s.portB := rfl
@[simp] theorem answered_log (command : List Byte) (a : Answer) :
    (s.answered command a).log = s.log := rfl
@[simp] theorem answered_alertLine (command : List Byte) (a : Answer) :
    (s.answered command a).alertLine = s.alertLine := rfl
@[simp] theorem answered_quiesce (command : List Byte) (a : Answer) :
    (s.answered command a).quiesce = s.quiesce := rfl
@[simp] theorem answered_pending (command : List Byte) (a : Answer) :
    (s.answered command a).pending = s.pending := rfl
@[simp] theorem answered_images (command : List Byte) (a : Answer) :
    (s.answered command a).images = s.images := rfl

/-! ### tick -/

@[simp] theorem tick_pins : (s.tick).pins = s.pins := by
  unfold State.tick; split <;> rfl
@[simp] theorem tick_table : (s.tick).table = s.table := by
  unfold State.tick; split <;> rfl
@[simp] theorem tick_queue : (s.tick).queue = s.queue := by
  unfold State.tick; split <;> rfl
@[simp] theorem tick_tracker : (s.tick).tracker = s.tracker := by
  unfold State.tick; split <;> rfl
@[simp] theorem tick_nextPlace : (s.tick).nextPlace = s.nextPlace := by
  unfold State.tick; split <;> rfl
@[simp] theorem tick_readAhead : (s.tick).readAhead = s.readAhead := by
  unfold State.tick; split <;> rfl
@[simp] theorem tick_memPort : (s.tick).memPort = s.memPort := by
  unfold State.tick; split <;> rfl
@[simp] theorem tick_portA : (s.tick).portA = s.portA := by
  unfold State.tick; split <;> rfl
@[simp] theorem tick_portB : (s.tick).portB = s.portB := by
  unfold State.tick; split <;> rfl
@[simp] theorem tick_log : (s.tick).log = s.log := by
  unfold State.tick; split <;> rfl
@[simp] theorem tick_alertLine : (s.tick).alertLine = s.alertLine := by
  unfold State.tick; split <;> rfl
@[simp] theorem tick_maint : (s.tick).maint = s.maint := by
  unfold State.tick; split <;> rfl
@[simp] theorem tick_quiesce : (s.tick).quiesce = s.quiesce := by
  unfold State.tick; split <;> rfl
@[simp] theorem tick_pending : (s.tick).pending = s.pending := by
  unfold State.tick; split <;> rfl
@[simp] theorem tick_images : (s.tick).images = s.images := by
  unfold State.tick; split <;> rfl

/-! ### setWarmInput -/

@[simp] theorem setWarmInput_startUp (level : Bool) :
    (s.setWarmInput level).startUp = s.startUp := rfl
@[simp] theorem setWarmInput_table (level : Bool) : (s.setWarmInput level).table = s.table := rfl
@[simp] theorem setWarmInput_queue (level : Bool) : (s.setWarmInput level).queue = s.queue := rfl
@[simp] theorem setWarmInput_tracker (level : Bool) :
    (s.setWarmInput level).tracker = s.tracker := rfl
@[simp] theorem setWarmInput_nextPlace (level : Bool) :
    (s.setWarmInput level).nextPlace = s.nextPlace := rfl
@[simp] theorem setWarmInput_readAhead (level : Bool) :
    (s.setWarmInput level).readAhead = s.readAhead := rfl
@[simp] theorem setWarmInput_memPort (level : Bool) :
    (s.setWarmInput level).memPort = s.memPort := rfl
@[simp] theorem setWarmInput_portA (level : Bool) : (s.setWarmInput level).portA = s.portA := rfl
@[simp] theorem setWarmInput_portB (level : Bool) : (s.setWarmInput level).portB = s.portB := rfl
@[simp] theorem setWarmInput_log (level : Bool) : (s.setWarmInput level).log = s.log := rfl
@[simp] theorem setWarmInput_alertLine (level : Bool) :
    (s.setWarmInput level).alertLine = s.alertLine := rfl
@[simp] theorem setWarmInput_maint (level : Bool) : (s.setWarmInput level).maint = s.maint := rfl
@[simp] theorem setWarmInput_quiesce (level : Bool) :
    (s.setWarmInput level).quiesce = s.quiesce := rfl
@[simp] theorem setWarmInput_pending (level : Bool) :
    (s.setWarmInput level).pending = s.pending := rfl
@[simp] theorem setWarmInput_images (level : Bool) : (s.setWarmInput level).images = s.images := rfl

/-! ### setSelect -/

@[simp] theorem setSelect_startUp (level : Bool) : (s.setSelect level).startUp = s.startUp := rfl
@[simp] theorem setSelect_table (level : Bool) : (s.setSelect level).table = s.table := rfl
@[simp] theorem setSelect_queue (level : Bool) : (s.setSelect level).queue = s.queue := rfl
@[simp] theorem setSelect_tracker (level : Bool) : (s.setSelect level).tracker = s.tracker := rfl
@[simp] theorem setSelect_nextPlace (level : Bool) :
    (s.setSelect level).nextPlace = s.nextPlace := rfl
@[simp] theorem setSelect_readAhead (level : Bool) :
    (s.setSelect level).readAhead = s.readAhead := rfl
@[simp] theorem setSelect_memPort (level : Bool) : (s.setSelect level).memPort = s.memPort := rfl
@[simp] theorem setSelect_portA (level : Bool) : (s.setSelect level).portA = s.portA := rfl
@[simp] theorem setSelect_portB (level : Bool) : (s.setSelect level).portB = s.portB := rfl
@[simp] theorem setSelect_log (level : Bool) : (s.setSelect level).log = s.log := rfl
@[simp] theorem setSelect_alertLine (level : Bool) :
    (s.setSelect level).alertLine = s.alertLine := rfl
@[simp] theorem setSelect_maint (level : Bool) : (s.setSelect level).maint = s.maint := rfl
@[simp] theorem setSelect_quiesce (level : Bool) : (s.setSelect level).quiesce = s.quiesce := rfl
@[simp] theorem setSelect_pending (level : Bool) : (s.setSelect level).pending = s.pending := rfl
@[simp] theorem setSelect_images (level : Bool) : (s.setSelect level).images = s.images := rfl

/-! ### setResetInput -/

@[simp] theorem setResetInput_pins (p : PortId) (level : Bool) :
    (s.setResetInput p level).pins = s.pins := by
  simp [State.setResetInput]
@[simp] theorem setResetInput_startUp (p : PortId) (level : Bool) :
    (s.setResetInput p level).startUp = s.startUp := by
  simp [State.setResetInput]
@[simp] theorem setResetInput_table (p : PortId) (level : Bool) :
    (s.setResetInput p level).table = s.table := by
  simp [State.setResetInput]
@[simp] theorem setResetInput_queue (p : PortId) (level : Bool) :
    (s.setResetInput p level).queue = s.queue := by
  simp [State.setResetInput]
@[simp] theorem setResetInput_tracker (p : PortId) (level : Bool) :
    (s.setResetInput p level).tracker = s.tracker := by
  simp [State.setResetInput]
@[simp] theorem setResetInput_nextPlace (p : PortId) (level : Bool) :
    (s.setResetInput p level).nextPlace = s.nextPlace := by
  simp [State.setResetInput]
@[simp] theorem setResetInput_readAhead (p : PortId) (level : Bool) :
    (s.setResetInput p level).readAhead = s.readAhead := by
  simp [State.setResetInput]
@[simp] theorem setResetInput_memPort (p : PortId) (level : Bool) :
    (s.setResetInput p level).memPort = s.memPort := by
  simp [State.setResetInput]
@[simp] theorem setResetInput_log (p : PortId) (level : Bool) :
    (s.setResetInput p level).log = s.log := by
  simp [State.setResetInput]
@[simp] theorem setResetInput_alertLine (p : PortId) (level : Bool) :
    (s.setResetInput p level).alertLine = s.alertLine := by
  simp [State.setResetInput]
@[simp] theorem setResetInput_maint (p : PortId) (level : Bool) :
    (s.setResetInput p level).maint = s.maint := by
  simp [State.setResetInput]
@[simp] theorem setResetInput_quiesce (p : PortId) (level : Bool) :
    (s.setResetInput p level).quiesce = s.quiesce := by
  simp [State.setResetInput]
@[simp] theorem setResetInput_pending (p : PortId) (level : Bool) :
    (s.setResetInput p level).pending = s.pending := by
  simp [State.setResetInput]
@[simp] theorem setResetInput_images (p : PortId) (level : Bool) :
    (s.setResetInput p level).images = s.images := by
  simp [State.setResetInput]

/-! ### setLinkReady -/

@[simp] theorem setLinkReady_pins (p : PortId) (level : Bool) :
    (s.setLinkReady p level).pins = s.pins := by
  simp [State.setLinkReady]
@[simp] theorem setLinkReady_startUp (p : PortId) (level : Bool) :
    (s.setLinkReady p level).startUp = s.startUp := by
  simp [State.setLinkReady]
@[simp] theorem setLinkReady_table (p : PortId) (level : Bool) :
    (s.setLinkReady p level).table = s.table := by
  simp [State.setLinkReady]
@[simp] theorem setLinkReady_queue (p : PortId) (level : Bool) :
    (s.setLinkReady p level).queue = s.queue := by
  simp [State.setLinkReady]
@[simp] theorem setLinkReady_tracker (p : PortId) (level : Bool) :
    (s.setLinkReady p level).tracker = s.tracker := by
  simp [State.setLinkReady]
@[simp] theorem setLinkReady_nextPlace (p : PortId) (level : Bool) :
    (s.setLinkReady p level).nextPlace = s.nextPlace := by
  simp [State.setLinkReady]
@[simp] theorem setLinkReady_readAhead (p : PortId) (level : Bool) :
    (s.setLinkReady p level).readAhead = s.readAhead := by
  simp [State.setLinkReady]
@[simp] theorem setLinkReady_memPort (p : PortId) (level : Bool) :
    (s.setLinkReady p level).memPort = s.memPort := by
  simp [State.setLinkReady]
@[simp] theorem setLinkReady_log (p : PortId) (level : Bool) :
    (s.setLinkReady p level).log = s.log := by
  simp [State.setLinkReady]
@[simp] theorem setLinkReady_alertLine (p : PortId) (level : Bool) :
    (s.setLinkReady p level).alertLine = s.alertLine := by
  simp [State.setLinkReady]
@[simp] theorem setLinkReady_maint (p : PortId) (level : Bool) :
    (s.setLinkReady p level).maint = s.maint := by
  simp [State.setLinkReady]
@[simp] theorem setLinkReady_quiesce (p : PortId) (level : Bool) :
    (s.setLinkReady p level).quiesce = s.quiesce := by
  simp [State.setLinkReady]
@[simp] theorem setLinkReady_pending (p : PortId) (level : Bool) :
    (s.setLinkReady p level).pending = s.pending := by
  simp [State.setLinkReady]
@[simp] theorem setLinkReady_images (p : PortId) (level : Bool) :
    (s.setLinkReady p level).images = s.images := by
  simp [State.setLinkReady]

/-! ### discardPort -/

@[simp] theorem discardPort_pins (p : PortId) : (s.discardPort p).pins = s.pins := by
  simp [State.discardPort]
@[simp] theorem discardPort_startUp (p : PortId) : (s.discardPort p).startUp = s.startUp := by
  simp [State.discardPort]
@[simp] theorem discardPort_table (p : PortId) : (s.discardPort p).table = s.table := by
  simp [State.discardPort]
@[simp] theorem discardPort_nextPlace (p : PortId) : (s.discardPort p).nextPlace = s.nextPlace := by
  simp [State.discardPort]
@[simp] theorem discardPort_log (p : PortId) : (s.discardPort p).log = s.log := by
  simp [State.discardPort]
@[simp] theorem discardPort_alertLine (p : PortId) : (s.discardPort p).alertLine = s.alertLine := by
  simp [State.discardPort]
@[simp] theorem discardPort_maint (p : PortId) : (s.discardPort p).maint = s.maint := by
  simp [State.discardPort]
@[simp] theorem discardPort_quiesce (p : PortId) : (s.discardPort p).quiesce = s.quiesce := by
  simp [State.discardPort]
@[simp] theorem discardPort_pending (p : PortId) : (s.discardPort p).pending = s.pending := by
  simp [State.discardPort]
@[simp] theorem discardPort_images (p : PortId) : (s.discardPort p).images = s.images := by
  simp [State.discardPort]

/-! ### enqueue -/

@[simp] theorem enqueue_pins (r : WriteRecord) : (s.enqueue r).pins = s.pins := rfl
@[simp] theorem enqueue_startUp (r : WriteRecord) : (s.enqueue r).startUp = s.startUp := rfl
@[simp] theorem enqueue_table (r : WriteRecord) : (s.enqueue r).table = s.table := rfl
@[simp] theorem enqueue_tracker (r : WriteRecord) : (s.enqueue r).tracker = s.tracker := rfl
@[simp] theorem enqueue_nextPlace (r : WriteRecord) : (s.enqueue r).nextPlace = s.nextPlace := rfl
@[simp] theorem enqueue_memPort (r : WriteRecord) : (s.enqueue r).memPort = s.memPort := rfl
@[simp] theorem enqueue_portA (r : WriteRecord) : (s.enqueue r).portA = s.portA := rfl
@[simp] theorem enqueue_portB (r : WriteRecord) : (s.enqueue r).portB = s.portB := rfl
@[simp] theorem enqueue_log (r : WriteRecord) : (s.enqueue r).log = s.log := rfl
@[simp] theorem enqueue_alertLine (r : WriteRecord) : (s.enqueue r).alertLine = s.alertLine := rfl
@[simp] theorem enqueue_maint (r : WriteRecord) : (s.enqueue r).maint = s.maint := rfl
@[simp] theorem enqueue_quiesce (r : WriteRecord) : (s.enqueue r).quiesce = s.quiesce := rfl
@[simp] theorem enqueue_pending (r : WriteRecord) : (s.enqueue r).pending = s.pending := rfl

/-! ### logParity -/

@[simp] theorem logParity_pins (r : WriteRecord) : (s.logParity r).pins = s.pins := by
  unfold State.logParity; split <;> simp
@[simp] theorem logParity_startUp (r : WriteRecord) : (s.logParity r).startUp = s.startUp := by
  unfold State.logParity; split <;> simp
@[simp] theorem logParity_table (r : WriteRecord) : (s.logParity r).table = s.table := by
  unfold State.logParity; split <;> simp
@[simp] theorem logParity_queue (r : WriteRecord) : (s.logParity r).queue = s.queue := by
  unfold State.logParity; split <;> simp
@[simp] theorem logParity_tracker (r : WriteRecord) : (s.logParity r).tracker = s.tracker := by
  unfold State.logParity; split <;> simp
@[simp] theorem logParity_nextPlace (r : WriteRecord) :
    (s.logParity r).nextPlace = s.nextPlace := by
  unfold State.logParity; split <;> simp
@[simp] theorem logParity_readAhead (r : WriteRecord) :
    (s.logParity r).readAhead = s.readAhead := by
  unfold State.logParity; split <;> simp
@[simp] theorem logParity_memPort (r : WriteRecord) : (s.logParity r).memPort = s.memPort := by
  unfold State.logParity; split <;> simp
@[simp] theorem logParity_portA (r : WriteRecord) : (s.logParity r).portA = s.portA := by
  unfold State.logParity; split <;> simp
@[simp] theorem logParity_portB (r : WriteRecord) : (s.logParity r).portB = s.portB := by
  unfold State.logParity; split <;> simp
@[simp] theorem logParity_alertLine (r : WriteRecord) :
    (s.logParity r).alertLine = s.alertLine := by
  unfold State.logParity; split <;> simp
@[simp] theorem logParity_maint (r : WriteRecord) : (s.logParity r).maint = s.maint := by
  unfold State.logParity; split <;> simp
@[simp] theorem logParity_quiesce (r : WriteRecord) : (s.logParity r).quiesce = s.quiesce := by
  unfold State.logParity; split <;> simp
@[simp] theorem logParity_pending (r : WriteRecord) : (s.logParity r).pending = s.pending := by
  unfold State.logParity; split <;> simp
@[simp] theorem logParity_images (r : WriteRecord) : (s.logParity r).images = s.images := by
  unfold State.logParity; split <;> simp

/-! ### logLoss -/

@[simp] theorem logLoss_pins (records entries : Nat) :
    (s.logLoss records entries).pins = s.pins := by
  unfold State.logLoss; split <;> simp
@[simp] theorem logLoss_startUp (records entries : Nat) :
    (s.logLoss records entries).startUp = s.startUp := by
  unfold State.logLoss; split <;> simp
@[simp] theorem logLoss_table (records entries : Nat) :
    (s.logLoss records entries).table = s.table := by
  unfold State.logLoss; split <;> simp
@[simp] theorem logLoss_queue (records entries : Nat) :
    (s.logLoss records entries).queue = s.queue := by
  unfold State.logLoss; split <;> simp
@[simp] theorem logLoss_tracker (records entries : Nat) :
    (s.logLoss records entries).tracker = s.tracker := by
  unfold State.logLoss; split <;> simp
@[simp] theorem logLoss_nextPlace (records entries : Nat) :
    (s.logLoss records entries).nextPlace = s.nextPlace := by
  unfold State.logLoss; split <;> simp
@[simp] theorem logLoss_readAhead (records entries : Nat) :
    (s.logLoss records entries).readAhead = s.readAhead := by
  unfold State.logLoss; split <;> simp
@[simp] theorem logLoss_memPort (records entries : Nat) :
    (s.logLoss records entries).memPort = s.memPort := by
  unfold State.logLoss; split <;> simp
@[simp] theorem logLoss_portA (records entries : Nat) :
    (s.logLoss records entries).portA = s.portA := by
  unfold State.logLoss; split <;> simp
@[simp] theorem logLoss_portB (records entries : Nat) :
    (s.logLoss records entries).portB = s.portB := by
  unfold State.logLoss; split <;> simp
@[simp] theorem logLoss_alertLine (records entries : Nat) :
    (s.logLoss records entries).alertLine = s.alertLine := by
  unfold State.logLoss; split <;> simp
@[simp] theorem logLoss_maint (records entries : Nat) :
    (s.logLoss records entries).maint = s.maint := by
  unfold State.logLoss; split <;> simp
@[simp] theorem logLoss_quiesce (records entries : Nat) :
    (s.logLoss records entries).quiesce = s.quiesce := by
  unfold State.logLoss; split <;> simp
@[simp] theorem logLoss_pending (records entries : Nat) :
    (s.logLoss records entries).pending = s.pending := by
  unfold State.logLoss; split <;> simp
@[simp] theorem logLoss_images (records entries : Nat) :
    (s.logLoss records entries).images = s.images := by
  unfold State.logLoss; split <;> simp

/-! ### What the written fields become -/

@[simp] theorem setPort_port_same (p : PortId) (x : Port) : (s.setPort p x).port p = x := by
  cases p <;> rfl

theorem setPort_port_other (p q : PortId) (x : Port) (h : q ≠ p) :
    (s.setPort p x).port q = s.port q := by
  cases p <;> cases q <;> first | rfl | exact absurd rfl h

@[simp] theorem setPort_port_self (p : PortId) : s.setPort p (s.port p) = s := by
  cases p <;> rfl

@[simp] theorem setPort_setPort (p : PortId) (x y : Port) :
    (s.setPort p x).setPort p y = s.setPort p y := by
  cases p <;> rfl

@[simp] theorem port_a : s.port .a = s.portA := rfl

@[simp] theorem port_b : s.port .b = s.portB := rfl

@[simp] theorem setSlot_memPort (i : SlotId) (x : Slot) :
    (s.setSlot i x).memPort = { s.memPort with slots := s.memPort.slots.set i x } := rfl

@[simp] theorem logEvent_log (e : LogEvent) :
    (s.logEvent e).log = s.log.append { time := s.startUp.counter, event := e } := rfl

@[simp] theorem addEntry_tracker (e : Entry) : (s.addEntry e).tracker = s.tracker ++ [e] := rfl

@[simp] theorem addEntry_nextPlace (e : Entry) : (s.addEntry e).nextPlace = s.nextPlace + 1 := rfl

@[simp] theorem weighReads_tracker :
    s.weighReads.tracker =
      s.tracker.map (weighEntry s.queue s.memPort.orphanedWriteLines) := rfl

@[simp] theorem answered_maint (command : List Byte) (a : Answer) :
    (s.answered command a).maint =
      { frame := .answering, commandPart := command, response := a.bytes } := rfl

@[simp] theorem enqueue_queue (r : WriteRecord) : (s.enqueue r).queue = s.queue ++ [r] := rfl

@[simp] theorem enqueue_images (r : WriteRecord) : (s.enqueue r).images = s.images + 1 := rfl

/-- Settling twice is settling once. -/
@[simp] theorem settle_settle : s.settle.settle = s.settle := by
  unfold State.settle State.weighQuiesce State.driveAlert
  cases h : s.quiesce <;> simp only [h] <;>
    first
    | rfl
    | (split <;> simp_all [State.holdsNoWork, State.alertDue, State.portCauseHolds])

end State

end Sys2Proof.Machine
end

