-- ==== Sys2Proof/Laws/Vectors.lean ====
section
/-! SUPPORT. Vectors position by position: what `vecOf` and `mapVec` hold, how a quantifier over a vector's
list is one over its positions, and what the mask and image of a span hold. -/

namespace Sys2Proof.Machine

/-! ## vecOf and mapVec -/

@[simp] theorem vecOf_getElem {α : Type} (n : Nat) (f : Nat → α) (i : Nat) (h : i < n) :
    (vecOf n f)[i] = f i := by
  simp [vecOf]

theorem vecOf_getElem_fin {α : Type} (n : Nat) (f : Nat → α) (i : Fin n) :
    (vecOf n f)[i] = f i.val := by
  simp [vecOf]

@[simp] theorem mapVec_getElem {α β : Type} {n : Nat} (f : α → β) (v : Vector α n) (i : Nat)
    (h : i < n) : (mapVec f v)[i] = f v[i] := by
  simp [mapVec]

theorem mapVec_getElem_fin {α β : Type} {n : Nat} (f : α → β) (v : Vector α n)
    (i : Fin n) : (mapVec f v)[i] = f v[i] := by
  simp [mapVec]

theorem mapVec_mapVec {α β γ : Type} {n : Nat} (g : β → γ) (f : α → β) (v : Vector α n) :
    mapVec g (mapVec f v) = mapVec (fun x => g (f x)) v := by
  simp [mapVec, Function.comp_def]

theorem mapVec_id {α : Type} {n : Nat} (v : Vector α n) : mapVec (fun x => x) v = v := by
  simp [mapVec]

/-- Setting one position, read through a `Fin` index. -/
theorem set_getElem_fin {α : Type} {n : Nat} (v : Vector α n) (i j : Fin n) (x : α) :
    (v.set i x)[j] = if j = i then x else v[j] := by
  simp only [Fin.getElem_fin, Vector.getElem_set, Fin.ext_iff, eq_comm]

theorem set_getElem_fin_self {α : Type} {n : Nat} (v : Vector α n) (i : Fin n) (x : α) :
    (v.set i x)[i] = x := by
  rw [set_getElem_fin, if_pos rfl]

theorem set_getElem_fin_other {α : Type} {n : Nat} (v : Vector α n) (i j : Fin n) (x : α)
    (h : j ≠ i) : (v.set i x)[j] = v[j] := by
  rw [set_getElem_fin, if_neg h]

/-! ## Quantifiers over a vector's list -/

theorem mem_vector_list {α : Type} {n : Nat} (v : Vector α n) (x : α) :
    x ∈ v.toArray.toList ↔ ∃ i : Fin n, v[i] = x := by
  simp [List.mem_iff_getElem, Fin.exists_iff]

/-- No position counts exactly when each position is false. -/
theorem countP_vector_eq_zero {α : Type} {n : Nat} (v : Vector α n) (f : α → Bool) :
    v.toArray.toList.countP f = 0 ↔ ∀ i : Fin n, f v[i] = false := by
  rw [List.countP_eq_zero]
  constructor
  · intro h i
    simpa using h _ ((mem_vector_list v _).2 ⟨i, rfl⟩)
  · intro h x hx
    obtain ⟨i, rfl⟩ := (mem_vector_list v x).1 hx
    rw [h i]
    exact Bool.false_ne_true

theorem any_vector_list {α : Type} {n : Nat} (v : Vector α n) (f : α → Bool) :
    v.toArray.toList.any f = true ↔ ∃ i : Fin n, f v[i] = true := by
  rw [List.any_eq_true]
  constructor
  · rintro ⟨x, hx, hf⟩
    obtain ⟨i, rfl⟩ := (mem_vector_list v x).1 hx
    exact ⟨i, hf⟩
  · rintro ⟨i, hf⟩
    exact ⟨_, (mem_vector_list v _).2 ⟨i, rfl⟩, hf⟩

/-- A count of slots is 0 exactly when no slot is counted. -/
theorem MemPort.count_eq_zero (m : MemPort) (f : Slot → Bool) :
    m.count f = 0 ↔ ∀ i : SlotId, f m.slots[i] = false :=
  countP_vector_eq_zero m.slots f

/-- The lines of the ORPHANED write slots, slot by slot. -/
theorem MemPort.mem_orphanedWriteLines (m : MemPort) (line : Addr) :
    line ∈ m.orphanedWriteLines ↔ ∃ i : SlotId, m.slots[i] = .orphaned .write line := by
  unfold MemPort.orphanedWriteLines
  simp only [List.mem_filterMap, mem_vector_list]
  constructor
  · rintro ⟨x, ⟨i, rfl⟩, hx⟩
    refine ⟨i, ?_⟩
    split at hx
    · rename_i h
      rw [h]
      simpa using hx
    · cases hx
  · rintro ⟨i, h⟩
    exact ⟨_, ⟨i, h⟩, rfl⟩

/-! ## Lists of numbers -/

theorem mem_allWindows (n : WindowId) : n ∈ allWindows := by
  revert n; decide

theorem mem_allStreams (k : StreamId) : k ∈ allStreams := by
  revert k; decide

theorem mem_allSlots (i : SlotId) : i ∈ allSlots := by
  revert i; decide

theorem mem_allLines (i : LineId) : i ∈ allLines := by
  revert i; decide

/-! ## Lanes -/

/-- Each lane map stays within the line. -/
theorem laneMap_lt (lane : LaneOrder) (p : Nat) (h : p < 64) : laneMap lane p < 64 := by
  cases lane <;> simp only [laneMap] <;> omega

/-- Each lane map undoes itself. -/
theorem laneMap_laneMap (lane : LaneOrder) (p : Nat) : laneMap lane (laneMap lane p) = p := by
  cases lane <;> simp only [laneMap] <;> omega

@[simp] theorem spanMask_getElem (lane : LaneOrder) (offset length p : Nat) (h : p < 64) :
    (spanMask lane offset length)[p] = inSpan lane offset length p := by
  simp [spanMask]

/-- A flag of a span's mask is set exactly when the mapped place lies in the span. -/
theorem inSpan_iff (lane : LaneOrder) (offset length p : Nat) :
    inSpan lane offset length p = true ↔
      offset ≤ laneMap lane p ∧ laneMap lane p < offset + length := by
  simp [inSpan]

theorem lineByte_of_lt (data : LineData) (p : Nat) (h : p < 64) : lineByte data p = data[p] := by
  simp [lineByte, h]

end Sys2Proof.Machine
end

