-- ==== Sys2Proof/Laws/Ops.lean ====
section
/-! SUPPORT. What the shared operations do, said once: taking an event, selecting the least, the error log, entries found
and finished, and the weighing of reads. -/

namespace Sys2Proof.Machine

/-! ## Taking an event -/

theorem State.take_held (s : State) (event : Option State) (h : s.pins.powerOnReset = true) :
    s.take event = .next s := by
  simp [State.take, h]

theorem State.take_none (s : State) : s.take none = .next s := by
  simp [State.take]

theorem State.take_some (s t : State) (h : s.pins.powerOnReset = false) :
    s.take (some t) = .next t.settle := by
  simp [State.take, h]

/-- Every taken event gives a next state. -/
theorem State.take_next (s : State) (event : Option State) : ∃ t, s.take event = .next t := by
  unfold State.take
  split
  · exact ⟨_, rfl⟩
  · split <;> exact ⟨_, rfl⟩

/-- What taking an event can do: nothing, or the event's effect settled. -/
theorem State.take_eq_next {s t : State} {event : Option State} (h : s.take event = .next t) :
    t = s ∨ ∃ u, event = some u ∧ s.pins.powerOnReset = false ∧ t = u.settle := by
  unfold State.take at h
  split at h
  · exact .inl (by injection h with h; exact h.symm)
  · rename_i hp
    split at h
    · exact .inl (by injection h with h; exact h.symm)
    · exact .inr ⟨_, rfl, by simpa using hp, by injection h with h; exact h.symm⟩

/-- A maintenance command: outside RECEIVING nothing happens, else its effect is answered. -/
theorem State.takeCommand_eq (s : State) (i : Instr) (r : State × Answer)
    (hp : s.pins.powerOnReset = false) (hf : s.maint.frame = .receiving) :
    s.takeCommand i r = .next (r.1.answered i.commandPart r.2).settle := by
  simp [State.takeCommand, hf, State.take, hp]

theorem State.takeCommand_ignored (s : State) (i : Instr) (r : State × Answer)
    (hf : s.maint.frame ≠ .receiving) : s.takeCommand i r = .next s := by
  unfold State.takeCommand
  split
  · rename_i h
    exact absurd h hf
  all_goals exact s.take_none

theorem State.whenRunning_running (s : State) (r : State × Answer)
    (h : s.startUp.partState = .running) : s.whenRunning r = r := by
  simp [State.whenRunning, h]

theorem State.whenRunning_loading (s : State) (r : State × Answer)
    (h : s.startUp.partState = .loading) : s.whenRunning r = (s, .refused) := by
  simp [State.whenRunning, h]

theorem windowArg_of_lt (n : Byte) (w : WindowId) (h : n.toNat = w.val) :
    windowArg n = some w := by
  unfold windowArg
  rw [dif_pos (by omega)]
  simp [h]

theorem windowArg_of_le (n : Byte) (h : 8 ≤ n.toNat) : windowArg n = none := by
  unfold windowArg
  rw [dif_neg (by omega)]

/-! ## The end of an event -/

theorem State.settle_alertLine (s : State) : s.settle.alertLine = s.alertDue := by
  unfold State.settle State.driveAlert
  simp [State.alertDue, State.portCauseHolds]

theorem State.settle_quiesce (s : State) :
    s.settle.quiesce =
      (if s.quiesce = .running then .running
      else if s.holdsNoWork = true then .quiesced else .quiescing) := by
  unfold State.settle State.driveAlert State.weighQuiesce
  cases h : s.quiesce <;> simp [h]

@[simp] theorem State.settle_holdsNoWork (s : State) : s.settle.holdsNoWork = s.holdsNoWork := by
  simp [State.holdsNoWork]

@[simp] theorem State.settle_alertDue (s : State) : s.settle.alertDue = s.alertDue := by
  simp [State.alertDue, State.portCauseHolds]

@[simp] theorem State.settle_port (s : State) (p : PortId) : s.settle.port p = s.port p := by
  cases p <;> simp

/-! ## Time -/

theorem Timer.reached_iff (t : Timer) (now : Time) :
    t.reached now = true ↔ t.span.toNat ≤ (now - t.start).toNat := by
  simp [Timer.reached]

/-- A duration that has just begun has not ended, unless it is 0 long. -/
theorem timerFrom_not_reached (now : Time) (span : Nat) (h0 : 0 < span) (h : span < 2 ^ 32) :
    (timerFrom now span).reached now = false := by
  simp [timerFrom, Timer.reached]
  omega

/-! ## Selecting -/

/-- The selected element is in the list, has the least key, and is the first with that key. -/
theorem leastBy_some {α : Type} (key : α → Nat) (xs : List α) (x : α)
    (h : leastBy key xs = some x) : x ∈ xs ∧ ∀ y ∈ xs, key x ≤ key y := by
  induction xs generalizing x with
  | nil => simp [leastBy] at h
  | cons a as ih =>
    unfold leastBy at h
    split at h
    · rename_i hn
      injection h with h
      subst h
      refine ⟨by simp, ?_⟩
      intro y hy
      rcases List.mem_cons.1 hy with rfl | hy
      · exact Nat.le_refl _
      · cases as with
        | nil => cases hy
        | cons b bs =>
          unfold leastBy at hn
          split at hn
          · cases hn
          · split at hn <;> cases hn
    · rename_i b hb
      obtain ⟨hm, hl⟩ := ih b hb
      split at h
      · injection h with h
        subst h
        refine ⟨by simp [hm], ?_⟩
        intro y hy
        rcases List.mem_cons.1 hy with rfl | hy
        · omega
        · exact hl y hy
      · injection h with h
        subst h
        refine ⟨by simp, ?_⟩
        intro y hy
        rcases List.mem_cons.1 hy with rfl | hy
        · exact Nat.le_refl _
        · have := hl y hy
          omega

/-- Nothing is selected exactly from the empty list. -/
theorem leastBy_eq_none {α : Type} (key : α → Nat) (xs : List α) :
    leastBy key xs = none ↔ xs = [] := by
  cases xs with
  | nil => simp [leastBy]
  | cons a as =>
    unfold leastBy
    split
    · simp
    · split <;> simp

/-- What is selected from a rising list of numbers: the one with the least key, the lowest among equals. -/
theorem leastBy_eq_some {n : Nat} (key : Fin n → Nat) (xs : List (Fin n)) (x : Fin n) (hx : x ∈ xs)
    (hp : xs.Pairwise (· < ·))
    (h : ∀ y ∈ xs, key x < key y ∨ (key x = key y ∧ x ≤ y)) : leastBy key xs = some x := by
  induction xs with
  | nil => cases hx
  | cons a xs ih =>
    unfold leastBy
    rw [List.pairwise_cons] at hp
    rcases List.mem_cons.1 hx with rfl | hx'
    · cases hl : leastBy key xs with
      | none => rfl
      | some z =>
        have := h z (List.mem_cons_of_mem _ (leastBy_some _ _ _ hl).1)
        simp only
        rw [if_neg (by omega)]
    · rw [ih hx' hp.2 fun y hy => h y (List.mem_cons_of_mem _ hy)]
      simp only
      rw [if_pos]
      rcases h a (List.mem_cons_self ..) with h1 | ⟨_, h2⟩
      · exact h1
      · exact absurd (hp.1 x hx') (not_lt.2 h2)

/-- The first number of a rising list with a property is the lowest that has it. -/
theorem find?_eq_lowest {n : Nat} (xs : List (Fin n)) (f : Fin n → Bool) (i : Fin n) (hi : i ∈ xs)
    (hp : xs.Pairwise (· < ·)) (h : f i = true) (hl : ∀ j, j < i → f j = false) :
    xs.find? f = some i := by
  induction xs with
  | nil => cases hi
  | cons a xs ih =>
    rw [List.pairwise_cons] at hp
    rcases List.mem_cons.1 hi with rfl | hi
    · rw [List.find?_cons, h]
    · rw [List.find?_cons, hl a (hp.1 _ hi)]
      exact ih hi hp.2

theorem allStreams_rising : allStreams.Pairwise (· < ·) := by decide

theorem allLines_rising : allLines.Pairwise (· < ·) := by decide

/-! ## The error log -/

/-- An append never loses a stored record and keeps the bounds (R155). -/
theorem ErrorLog.append_bounded (l : ErrorLog) (r : LogRecord) (h : l.records.length ≤ 8)
    (ho : l.overflow ≤ 255) :
    l.records <+: (l.append r).records ∧ (l.append r).records.length ≤ 8 ∧
      (l.append r).overflow ≤ 255 := by
  unfold ErrorLog.append Config.logCapacity Config.overflowLimit
  split
  · exact ⟨List.prefix_append _ _, by simp; omega, ho⟩
  · exact ⟨List.prefix_refl _, h, by simp⟩

/-! ## Tracker entries -/

theorem setEntryState_places (tracker : List Entry) (place : Nat) (state : EntryState) :
    (setEntryState tracker place state).map Entry.place = tracker.map Entry.place := by
  unfold setEntryState
  rw [List.map_map]
  refine List.map_congr_left fun e _ => ?_
  simp only [Function.comp_apply]
  split <;> rfl

theorem setEntryState_fields (tracker : List Entry) (place : Nat) (state : EntryState) :
    (setEntryState tracker place state).map (fun e => (e.port, e.tag, e.kind)) =
      tracker.map (fun e => (e.port, e.tag, e.kind)) := by
  unfold setEntryState
  rw [List.map_map]
  refine List.map_congr_left fun e _ => ?_
  simp only [Function.comp_apply]
  split <;> rfl

/-- An entry of the result is the old one, or the old one of that place in the new state. -/
theorem mem_setEntryState {tracker : List Entry} {place : Nat} {state : EntryState} {e : Entry} :
    e ∈ setEntryState tracker place state ↔
      (e ∈ tracker ∧ e.place ≠ place) ∨
        ∃ old ∈ tracker, old.place = place ∧ e = { old with state := state } := by
  unfold setEntryState
  rw [List.mem_map]
  constructor
  · rintro ⟨x, hx, rfl⟩
    split
    · rename_i h
      exact .inr ⟨x, hx, h, rfl⟩
    · rename_i h
      exact .inl ⟨hx, h⟩
  · rintro (⟨he, hp⟩ | ⟨old, ho, hp, rfl⟩)
    · exact ⟨e, he, by simp [hp]⟩
    · exact ⟨old, ho, by simp [hp]⟩

theorem State.entryAt_some {s : State} {place : Nat} {e : Entry} (h : s.entryAt place = some e) :
    e ∈ s.tracker ∧ e.place = place := by
  unfold State.entryAt at h
  exact ⟨List.mem_of_find?_eq_some h, by simpa using List.find?_some h⟩

theorem State.entryAt_none {s : State} {place : Nat} :
    s.entryAt place = none ↔ ∀ e ∈ s.tracker, e.place ≠ place := by
  unfold State.entryAt
  rw [List.find?_eq_none]
  simp

/-- With distinct places, the entry found at an entry's place is that entry. -/
theorem State.entryAt_of_mem {s : State} {e : Entry} (hn : (s.tracker.map Entry.place).Nodup)
    (he : e ∈ s.tracker) : s.entryAt e.place = some e := by
  cases h : s.entryAt e.place with
  | none => exact absurd rfl (State.entryAt_none.1 h e he)
  | some x =>
    obtain ⟨hx, hp⟩ := State.entryAt_some h
    exact congrArg some (List.inj_on_of_nodup_map hn hx he hp)

/-- finish at a live place: the entry is DONE and its place ends its port's list (R63). -/
theorem State.finish_eq {s : State} {place : Nat} {e : Entry} (status : Status)
    (data : List Byte) (h : s.entryAt place = some e) :
    s.finish place status data =
      { s with tracker := setEntryState s.tracker place (.done status data) }.setPort e.port
        { s.port e.port with done := (s.port e.port).done ++ [place] } := by
  simp [State.finish, h]

theorem State.finish_absent {s : State} {place : Nat} (status : Status) (data : List Byte)
    (h : s.entryAt place = none) : s.finish place status data = s := by
  simp [State.finish, h]

/-- The tracker after finish: the entry of that place, if any, is DONE. -/
theorem State.finish_tracker (s : State) (place : Nat) (status : Status) (data : List Byte) :
    (s.finish place status data).tracker = setEntryState s.tracker place (.done status data) := by
  cases h : s.entryAt place with
  | none =>
    rw [State.finish_absent status data h]
    unfold setEntryState
    conv_lhs => rw [← List.map_id s.tracker]
    refine List.map_congr_left fun e he => ?_
    rw [if_neg (State.entryAt_none.1 h e he), id]
  | some e =>
    rw [State.finish_eq status data h]
    cases e.port <;> rfl

/-- A port's list after finish: the place joins its end exactly when its entry is of the port (R63). -/
theorem State.finish_done (s : State) (place : Nat) (status : Status) (data : List Byte)
    (p : PortId) :
    ((s.finish place status data).port p).done = (s.port p).done ++
      if (s.entryAt place).any (fun e => decide (e.port = p)) then [place] else [] := by
  cases h : s.entryAt place with
  | none => simp [State.finish_absent status data h]
  | some e =>
    rw [State.finish_eq status data h]
    cases he : e.port <;> cases p <;> simp [State.setPort, State.port, he]

/-- finish moves no entry: places, ports, tags and kinds stay. -/
theorem State.finish_places (s : State) (place : Nat) (status : Status) (data : List Byte) :
    (s.finish place status data).tracker.map Entry.place = s.tracker.map Entry.place := by
  cases h : s.entryAt place with
  | none => rw [State.finish_absent status data h]
  | some e =>
    rw [State.finish_eq status data h]
    cases e.port <;> exact setEntryState_places _ _ _

/-- A port after finish: only its list can have grown, by that place at its end. -/
theorem State.finish_port (s : State) (place : Nat) (status : Status) (data : List Byte)
    (p : PortId) :
    (s.finish place status data).port p = s.port p ∨
      (s.finish place status data).port p =
        { s.port p with done := (s.port p).done ++ [place] } := by
  cases h : s.entryAt place with
  | none => rw [State.finish_absent status data h]; exact .inl rfl
  | some e =>
    rw [State.finish_eq status data h]
    cases e.port <;> cases p <;> simp [State.setPort, State.port]

/-! ## Weighing reads -/

@[simp] theorem weighEntry_place (queue : List WriteRecord) (orphaned : List Addr) (e : Entry) :
    (weighEntry queue orphaned e).place = e.place := by
  unfold weighEntry
  split <;> (try split) <;> rfl

@[simp] theorem weighEntry_port (queue : List WriteRecord) (orphaned : List Addr) (e : Entry) :
    (weighEntry queue orphaned e).port = e.port := by
  unfold weighEntry
  split <;> (try split) <;> rfl

@[simp] theorem weighEntry_tag (queue : List WriteRecord) (orphaned : List Addr) (e : Entry) :
    (weighEntry queue orphaned e).tag = e.tag := by
  unfold weighEntry
  split <;> (try split) <;> rfl

@[simp] theorem weighEntry_kind (queue : List WriteRecord) (orphaned : List Addr) (e : Entry) :
    (weighEntry queue orphaned e).kind = e.kind := by
  unfold weighEntry
  split <;> (try split) <;> rfl

/-- Weighing changes no entry but a READ in ORDER_WAIT or READY. -/
theorem weighEntry_other (queue : List WriteRecord) (orphaned : List Addr) (e : Entry)
    (hw : e.state ≠ .orderWait) (hr : e.state ≠ .ready) : weighEntry queue orphaned e = e := by
  unfold weighEntry
  split
  · rename_i h
    exact absurd h hw
  · rename_i h
    exact absurd h hr
  · rfl

/-- A weighed READ in ORDER_WAIT or READY is READY exactly when it is eligible (R51, R52). -/
theorem weighEntry_read (queue : List WriteRecord) (orphaned : List Addr) (e : Entry)
    (r : ReadFields) (hk : e.kind = .read r) (hs : e.state = .orderWait ∨ e.state = .ready) :
    (weighEntry queue orphaned e).state =
      if readEligible queue orphaned e.port r then .ready else .orderWait := by
  unfold weighEntry
  rcases hs with hs | hs <;> simp only [hk, hs] <;> split <;> simp_all

/-- Weighing twice is weighing once. -/
theorem weighEntry_weighEntry (queue : List WriteRecord) (orphaned : List Addr) (e : Entry) :
    weighEntry queue orphaned (weighEntry queue orphaned e) = weighEntry queue orphaned e := by
  by_cases hs : e.state = .orderWait ∨ e.state = .ready
  · cases hk : e.kind with
    | read r =>
      unfold weighEntry
      rcases hs with hs | hs <;> simp only [hk, hs] <;>
        cases h : readEligible queue orphaned e.port r <;> simp [hk, hs, h]
    | ackedWrite => simp [weighEntry, hk]
    | fence f => simp [weighEntry, hk]
  · have hw : e.state ≠ .orderWait := fun h => hs (.inl h)
    have hr : e.state ≠ .ready := fun h => hs (.inr h)
    rw [weighEntry_other queue orphaned e hw hr, weighEntry_other queue orphaned e hw hr]

/-- The weighed reads stay where they were. -/
theorem State.weighReads_places (s : State) :
    s.weighReads.tracker.map Entry.place = s.tracker.map Entry.place := by
  simp [Function.comp_def]

/-- Weighing changes nothing when every entry is already weighed. -/
theorem State.weighReads_of_weighed (s : State)
    (h : ∀ e ∈ s.tracker, weighEntry s.queue s.memPort.orphanedWriteLines e = e) :
    s.weighReads = s := by
  have : s.tracker.map (weighEntry s.queue s.memPort.orphanedWriteLines) = s.tracker := by
    conv_rhs => rw [← List.map_id s.tracker]
    exact List.map_congr_left h
  unfold State.weighReads
  rw [this]

end Sys2Proof.Machine
end

