-- ==== Sys2Proof/Laws/Dispatch.lean ====
section
/-! SUPPORT. Each arm of `exec` as an equation, and that every command gives a next state. -/

namespace Sys2Proof.Machine

@[simp] theorem exec_powerOnResetAssert (s : State) :
    exec .powerOnResetAssert s = execPowerOnResetAssert s := rfl

@[simp] theorem exec_powerOnResetRelease (s : State) :
    exec .powerOnResetRelease s = execPowerOnResetRelease s := rfl

@[simp] theorem exec_loadEnd (flash : List Byte) (s : State) :
    exec (.loadEnd flash) s = execLoadEnd flash s := rfl

@[simp] theorem exec_warmResetAssert (s : State) :
    exec .warmResetAssert s = execWarmResetAssert s := rfl

@[simp] theorem exec_warmResetRelease (s : State) :
    exec .warmResetRelease s = execWarmResetRelease s := rfl

@[simp] theorem exec_portResetAssert (port : PortId) (s : State) :
    exec (.portResetAssert port) s = execPortResetAssert port s := rfl

@[simp] theorem exec_linkReadyLoss (port : PortId) (s : State) :
    exec (.linkReadyLoss port) s = execLinkReadyLoss port s := rfl

@[simp] theorem exec_portResetRelease (port : PortId) (s : State) :
    exec (.portResetRelease port) s = execPortResetRelease port s := rfl

@[simp] theorem exec_linkReadyArrival (port : PortId) (s : State) :
    exec (.linkReadyArrival port) s = execLinkReadyArrival port s := rfl

@[simp] theorem exec_requestRead (port : PortId) (rest : List LinkByte) (s : State) :
    exec (.requestRead port rest) s = execRequestRead port rest s := rfl

@[simp] theorem exec_requestWrite (port : PortId) (rest : List LinkByte) (s : State) :
    exec (.requestWrite port rest) s = execRequestWrite port rest s := rfl

@[simp] theorem exec_requestFence (port : PortId) (rest : List LinkByte) (s : State) :
    exec (.requestFence port rest) s = execRequestFence port rest s := rfl

@[simp] theorem exec_grant (s : State) : exec .grant s = execGrant s := rfl

@[simp] theorem exec_response (message : List Byte) (s : State) :
    exec (.response message) s = execResponse message s := rfl

@[simp] theorem exec_slotDeadline (slot : SlotId) (s : State) :
    exec (.slotDeadline slot) s = execSlotDeadline slot s := rfl

@[simp] theorem exec_writeBackoffEnd (s : State) :
    exec .writeBackoffEnd s = execWriteBackoffEnd s := rfl

@[simp] theorem exec_readBackoffEnd (port : PortId) (tag : Byte) (s : State) :
    exec (.readBackoffEnd port tag) s = execReadBackoffEnd port tag s := rfl

@[simp] theorem exec_fetchBackoffEnd (line : LineId) (s : State) :
    exec (.fetchBackoffEnd line) s = execFetchBackoffEnd line s := rfl

@[simp] theorem exec_idleExpiry (stream : StreamId) (s : State) :
    exec (.idleExpiry stream) s = execIdleExpiry stream s := rfl

@[simp] theorem exec_completionBegin (port : PortId) (s : State) :
    exec (.completionBegin port) s = execCompletionBegin port s := rfl

@[simp] theorem exec_completionSent (port : PortId) (s : State) :
    exec (.completionSent port) s = execCompletionSent port s := rfl

@[simp] theorem exec_creditBegin (port : PortId) (s : State) :
    exec (.creditBegin port) s = execCreditBegin port s := rfl

@[simp] theorem exec_creditSent (port : PortId) (s : State) :
    exec (.creditSent port) s = execCreditSent port s := rfl

@[simp] theorem exec_selectAssert (s : State) : exec .selectAssert s = execSelectAssert s := rfl

@[simp] theorem exec_selectRelease (s : State) : exec .selectRelease s = execSelectRelease s := rfl

@[simp] theorem exec_lastBitOfResponseSent (s : State) :
    exec .lastBitOfResponseSent s = execLastBitOfResponseSent s := rfl

@[simp] theorem exec_unknownCommand (code : Byte) (s : State) :
    exec (.unknownCommand code) s = execUnknownCommand code s := rfl

@[simp] theorem exec_getStatus (s : State) : exec .getStatus s = execGetStatus s := rfl

@[simp] theorem exec_getWindow (n : Byte) (s : State) :
    exec (.getWindow n) s = execGetWindow n s := rfl

@[simp] theorem exec_setWindow (n : Byte) (record : WindowBytes) (s : State) :
    exec (.setWindow n record) s = execSetWindow n record s := rfl

@[simp] theorem exec_enableWindow (n : Byte) (s : State) :
    exec (.enableWindow n) s = execEnableWindow n s := rfl

@[simp] theorem exec_disableWindow (n : Byte) (s : State) :
    exec (.disableWindow n) s = execDisableWindow n s := rfl

@[simp] theorem exec_thawWindow (n : Byte) (s : State) :
    exec (.thawWindow n) s = execThawWindow n s := rfl

@[simp] theorem exec_getCatchall (s : State) : exec .getCatchall s = execGetCatchall s := rfl

@[simp] theorem exec_setCatchall (mode : Byte) (retryCode : Byte) (s : State) :
    exec (.setCatchall mode retryCode) s = execSetCatchall mode retryCode s := rfl

@[simp] theorem exec_getParams (s : State) : exec .getParams s = execGetParams s := rfl

@[simp] theorem exec_setParams (params : ParamBytes) (s : State) :
    exec (.setParams params) s = execSetParams params s := rfl

@[simp] theorem exec_setAlertMask (mask : Byte) (s : State) :
    exec (.setAlertMask mask) s = execSetAlertMask mask s := rfl

@[simp] theorem exec_peekLog (s : State) : exec .peekLog s = execPeekLog s := rfl

@[simp] theorem exec_popLog (s : State) : exec .popLog s = execPopLog s := rfl

@[simp] theorem exec_clearOverflow (s : State) : exec .clearOverflow s = execClearOverflow s := rfl

@[simp] theorem exec_reclaimSlots (s : State) : exec .reclaimSlots s = execReclaimSlots s := rfl

@[simp] theorem exec_quiesce (s : State) : exec .quiesce s = execQuiesce s := rfl

@[simp] theorem exec_resume (s : State) : exec .resume s = execResume s := rfl

@[simp] theorem exec_requestOfNoKnownKind (port : PortId) (message : List LinkByte) (s : State) :
    exec (.requestOfNoKnownKind port message) s = execRequestOfNoKnownKind port message s := rfl

end Sys2Proof.Machine
end

