-- ==== Sys2Proof/Laws/PerInstr.lean ====
section
/-! SUPPORT. The framing of the maintenance commands, command by command: the command part that a command is made of has as
many argument bytes as its code calls for (Table 11-6). -/

namespace Sys2Proof.Laws.Framing

/-- The command part of a well-formed command, if it has one, is a code byte and the argument bytes that the
code calls for; a code that names no command stands alone. -/
def Statement (i : Instr) : Prop :=
  i.wellFormed = true → ∀ code args, i.commandPart = code :: args →
    args.length = (argumentCount code).getD 0

/-- A code that names no command calls for no argument bytes. -/
theorem argumentCount_unknown (code : Byte) (h : knownCode code = false) :
    (argumentCount code).getD 0 = 0 := by
  revert code
  decide +kernel

theorem powerOnResetAssert : Statement .powerOnResetAssert := by
  intro _ code args h
  cases h

theorem powerOnResetRelease : Statement .powerOnResetRelease := by
  intro _ code args h
  cases h

theorem loadEnd (flash : List Byte) : Statement (.loadEnd flash) := by
  intro _ code args h
  cases h

theorem warmResetAssert : Statement .warmResetAssert := by
  intro _ code args h
  cases h

theorem warmResetRelease : Statement .warmResetRelease := by
  intro _ code args h
  cases h

theorem portResetAssert (port : PortId) : Statement (.portResetAssert port) := by
  intro _ code args h
  cases h

theorem linkReadyLoss (port : PortId) : Statement (.linkReadyLoss port) := by
  intro _ code args h
  cases h

theorem portResetRelease (port : PortId) : Statement (.portResetRelease port) := by
  intro _ code args h
  cases h

theorem linkReadyArrival (port : PortId) : Statement (.linkReadyArrival port) := by
  intro _ code args h
  cases h

theorem requestRead (port : PortId) (rest : List LinkByte) : Statement (.requestRead port rest) := by
  intro _ code args h
  cases h

theorem requestWrite (port : PortId) (rest : List LinkByte) : Statement (.requestWrite port rest) := by
  intro _ code args h
  cases h

theorem requestFence (port : PortId) (rest : List LinkByte) : Statement (.requestFence port rest) := by
  intro _ code args h
  cases h

theorem grant : Statement .grant := by
  intro _ code args h
  cases h

theorem response (message : List Byte) : Statement (.response message) := by
  intro _ code args h
  cases h

theorem slotDeadline (slot : SlotId) : Statement (.slotDeadline slot) := by
  intro _ code args h
  cases h

theorem writeBackoffEnd : Statement .writeBackoffEnd := by
  intro _ code args h
  cases h

theorem readBackoffEnd (port : PortId) (tag : Byte) : Statement (.readBackoffEnd port tag) := by
  intro _ code args h
  cases h

theorem fetchBackoffEnd (line : LineId) : Statement (.fetchBackoffEnd line) := by
  intro _ code args h
  cases h

theorem idleExpiry (stream : StreamId) : Statement (.idleExpiry stream) := by
  intro _ code args h
  cases h

theorem completionBegin (port : PortId) : Statement (.completionBegin port) := by
  intro _ code args h
  cases h

theorem completionSent (port : PortId) : Statement (.completionSent port) := by
  intro _ code args h
  cases h

theorem creditBegin (port : PortId) : Statement (.creditBegin port) := by
  intro _ code args h
  cases h

theorem creditSent (port : PortId) : Statement (.creditSent port) := by
  intro _ code args h
  cases h

theorem selectAssert : Statement .selectAssert := by
  intro _ code args h
  cases h

theorem selectRelease : Statement .selectRelease := by
  intro _ code args h
  cases h

theorem lastBitOfResponseSent : Statement .lastBitOfResponseSent := by
  intro _ code args h
  cases h

theorem unknownCommand (code : Byte) : Statement (.unknownCommand code) := by
  intro hw c args h
  injection h with hc ha
  subst hc ha
  exact (argumentCount_unknown code (by simpa [Instr.wellFormed] using hw)).symm

theorem getStatus : Statement .getStatus := by
  intro _ code args h
  injection h with hc ha
  subst hc ha
  rfl

theorem getWindow (n : Byte) : Statement (.getWindow n) := by
  intro _ code args h
  injection h with hc ha
  subst hc ha
  rfl

theorem setWindow (n : Byte) (record : WindowBytes) : Statement (.setWindow n record) := by
  intro _ code args h
  injection h with hc ha
  subst hc ha
  rfl

theorem enableWindow (n : Byte) : Statement (.enableWindow n) := by
  intro _ code args h
  injection h with hc ha
  subst hc ha
  rfl

theorem disableWindow (n : Byte) : Statement (.disableWindow n) := by
  intro _ code args h
  injection h with hc ha
  subst hc ha
  rfl

theorem thawWindow (n : Byte) : Statement (.thawWindow n) := by
  intro _ code args h
  injection h with hc ha
  subst hc ha
  rfl

theorem getCatchall : Statement .getCatchall := by
  intro _ code args h
  injection h with hc ha
  subst hc ha
  rfl

theorem setCatchall (mode : Byte) (retryCode : Byte) : Statement (.setCatchall mode retryCode) := by
  intro _ code args h
  injection h with hc ha
  subst hc ha
  rfl

theorem getParams : Statement .getParams := by
  intro _ code args h
  injection h with hc ha
  subst hc ha
  rfl

theorem setParams (params : ParamBytes) : Statement (.setParams params) := by
  intro _ code args h
  injection h with hc ha
  subst hc ha
  rfl

theorem setAlertMask (mask : Byte) : Statement (.setAlertMask mask) := by
  intro _ code args h
  injection h with hc ha
  subst hc ha
  rfl

theorem peekLog : Statement .peekLog := by
  intro _ code args h
  injection h with hc ha
  subst hc ha
  rfl

theorem popLog : Statement .popLog := by
  intro _ code args h
  injection h with hc ha
  subst hc ha
  rfl

theorem clearOverflow : Statement .clearOverflow := by
  intro _ code args h
  injection h with hc ha
  subst hc ha
  rfl

theorem reclaimSlots : Statement .reclaimSlots := by
  intro _ code args h
  injection h with hc ha
  subst hc ha
  rfl

theorem quiesce : Statement .quiesce := by
  intro _ code args h
  injection h with hc ha
  subst hc ha
  rfl

theorem resume : Statement .resume := by
  intro _ code args h
  injection h with hc ha
  subst hc ha
  rfl

theorem requestOfNoKnownKind (port : PortId) (message : List LinkByte) : Statement (.requestOfNoKnownKind port message) := by
  intro _ code args h
  cases h

end Sys2Proof.Laws.Framing
end

