-- ==== Sys2Proof/Laws/ReadAhead.lean ====
section
/-! SUPPORT. The read-ahead unit's operations, said once: one line or stream written, release, retirement, the top-up pass,
and the selections over lines. -/

namespace Sys2Proof.Machine

/-! ## One line, one stream -/

theorem ReadAhead.setLine_lines (ra : ReadAhead) (i j : LineId) (l : Option Line) :
    (ra.setLine i l).lines[j] = if j = i then l else ra.lines[j] :=
  set_getElem_fin _ _ _ _

@[simp] theorem ReadAhead.setLine_streams (ra : ReadAhead) (i : LineId) (l : Option Line) :
    (ra.setLine i l).streams = ra.streams := rfl

@[simp] theorem ReadAhead.setLine_nextFetch (ra : ReadAhead) (i : LineId) (l : Option Line) :
    (ra.setLine i l).nextFetch = ra.nextFetch := rfl

theorem ReadAhead.setStream_streams (ra : ReadAhead) (k j : StreamId) (st : Option Stream) :
    (ra.setStream k st).streams[j] = if j = k then st else ra.streams[j] :=
  set_getElem_fin _ _ _ _

@[simp] theorem ReadAhead.setStream_lines (ra : ReadAhead) (k : StreamId) (st : Option Stream) :
    (ra.setStream k st).lines = ra.lines := rfl

@[simp] theorem ReadAhead.setStream_nextFetch (ra : ReadAhead) (k : StreamId)
    (st : Option Stream) : (ra.setStream k st).nextFetch = ra.nextFetch := rfl

theorem ReadAhead.mapLines_lines (ra : ReadAhead) (f : Line → Option Line) (i : LineId) :
    (ra.mapLines f).lines[i] = ra.lines[i].bind f := by
  unfold ReadAhead.mapLines
  exact mapVec_getElem_fin _ _ _

@[simp] theorem ReadAhead.mapLines_streams (ra : ReadAhead) (f : Line → Option Line) :
    (ra.mapLines f).streams = ra.streams := rfl

theorem ReadAhead.lineIs_of_some {ra : ReadAhead} {i : LineId} {l : Line}
    (h : ra.lines[i] = some l) (f : Line → Bool) : ra.lineIs f i = f l := by
  unfold ReadAhead.lineIs
  rw [h]

theorem ReadAhead.lineIs_true {ra : ReadAhead} {f : Line → Bool} {i : LineId} :
    ra.lineIs f i = true ↔ ∃ l, ra.lines[i] = some l ∧ f l = true := by
  unfold ReadAhead.lineIs
  split
  · rename_i h
    simp only [h, Bool.false_eq_true, reduceCtorEq, false_and, exists_false]
  · rename_i l h
    simp only [h, Option.some.injEq, exists_eq_left']

theorem ReadAhead.orderOfLine_of_some {ra : ReadAhead} {i : LineId} {l : Line}
    (h : ra.lines[i] = some l) : ra.orderOfLine i = l.order := by
  unfold ReadAhead.orderOfLine
  rw [h]

/-! ## Selecting a line -/

/-- The earliest line has the property, and the least creation order among those that have it. -/
theorem ReadAhead.earliest_some {ra : ReadAhead} {f : LineId → Bool} {i : LineId}
    (h : ra.earliest f = some i) :
    f i = true ∧ ∀ j, f j = true → ra.orderOfLine i ≤ ra.orderOfLine j := by
  obtain ⟨hm, hl⟩ := leastBy_some _ _ _ h
  exact ⟨(List.mem_filter.1 hm).2, fun j hj => hl j (List.mem_filter.2 ⟨mem_allLines j, hj⟩)⟩

theorem ReadAhead.earliest_none {ra : ReadAhead} {f : LineId → Bool} :
    ra.earliest f = none ↔ ∀ j, f j = false := by
  unfold ReadAhead.earliest
  rw [leastBy_eq_none, List.filter_eq_nil_iff]
  exact ⟨fun h j => by simpa using h j (mem_allLines j), fun h j _ => by simp [h j]⟩

/-- Which lines a lookup considers (R71). -/
theorem ReadAhead.considers_iff (ra : ReadAhead) (p : PortId) (w : WindowId) (target : Addr)
    (i : LineId) :
    ra.considers p w target i = true ↔
      ∃ l k st, ra.lines[i] = some l ∧ l.owner = some k ∧ ra.streams[k] = some st ∧
        st.port = p ∧ st.window = w ∧ l.target = target := by
  unfold ReadAhead.considers
  split
  · rename_i h
    simp only [h, Bool.false_eq_true, reduceCtorEq, false_and, exists_false]
  · rename_i l h
    split
    · rename_i ho
      simp only [h, Option.some.injEq, Bool.false_eq_true, false_iff, not_exists, not_and]
      rintro l' k st rfl hk
      rw [ho] at hk
      cases hk
    · rename_i k ho
      split
      · rename_i hs
        simp only [h, Option.some.injEq, Bool.false_eq_true, false_iff, not_exists, not_and]
        rintro l' k' st rfl hk hst
        rw [ho] at hk
        injection hk with hk
        subst hk
        rw [hs] at hst
        cases hst
      · rename_i st hs
        simp only [h, Option.some.injEq, Bool.and_eq_true, decide_eq_true_eq]
        constructor
        · rintro ⟨⟨hp, hw⟩, ht⟩
          exact ⟨l, k, st, rfl, ho, hs, hp, hw, ht⟩
        · rintro ⟨l', k', st', rfl, hk, hst, hp, hw, ht⟩
          rw [ho] at hk
          injection hk with hk
          subst hk
          rw [hs] at hst
          injection hst with hst
          subst hst
          exact ⟨⟨hp, hw⟩, ht⟩

/-! ## Release -/

/-- A release writes its own line and no other (R75). -/
theorem ReadAhead.release_lines (ra : ReadAhead) (i j : LineId) :
    (ra.release i).lines[j] =
      if j = i then ra.lines[j].bind Line.released else ra.lines[j] := by
  unfold ReadAhead.release
  split
  · rename_i h
    split
    · rename_i hj
      subst hj
      rw [h]
      rfl
    · rfl
  · rename_i l h
    rw [ReadAhead.setLine_lines]
    split
    · rename_i hj
      subst hj
      rw [h]
      rfl
    · rfl

@[simp] theorem ReadAhead.release_streams (ra : ReadAhead) (i : LineId) :
    (ra.release i).streams = ra.streams := by
  unfold ReadAhead.release
  split <;> rfl

@[simp] theorem ReadAhead.release_nextFetch (ra : ReadAhead) (i : LineId) :
    (ra.release i).nextFetch = ra.nextFetch := by
  unfold ReadAhead.release
  split <;> rfl

/-- What a release leaves is itself unchanged by a release. -/
theorem Line.released_released (l : Line) : l.released.bind Line.released = l.released := by
  unfold Line.released
  cases hs : l.state with
  | valid poison data => rfl
  | fetching => simp
  | pending t =>
    by_cases ha : l.attached.isEmpty = true
    · simp [ha]
    · simp only [ha, Bool.false_eq_true, if_false, Option.bind_some]

@[simp] theorem ReadAhead.releaseAll_streams (ra : ReadAhead) (is : List LineId) :
    (ra.releaseAll is).streams = ra.streams := by
  unfold ReadAhead.releaseAll
  induction is generalizing ra with
  | nil => rfl
  | cons i is ih => rw [List.foldl_cons, ih, ReadAhead.release_streams]

@[simp] theorem ReadAhead.releaseAll_nextFetch (ra : ReadAhead) (is : List LineId) :
    (ra.releaseAll is).nextFetch = ra.nextFetch := by
  unfold ReadAhead.releaseAll
  induction is generalizing ra with
  | nil => rfl
  | cons i is ih => rw [List.foldl_cons, ih, ReadAhead.release_nextFetch]

/-- Each listed line meets its fate (R75), every other line is unchanged. -/
theorem ReadAhead.releaseAll_lines (ra : ReadAhead) (is : List LineId) (j : LineId) :
    (ra.releaseAll is).lines[j] =
      if j ∈ is then ra.lines[j].bind Line.released else ra.lines[j] := by
  unfold ReadAhead.releaseAll
  induction is generalizing ra with
  | nil => simp
  | cons i is ih =>
    rw [List.foldl_cons, ih, ReadAhead.release_lines]
    by_cases hi : j = i
    · subst hi
      simp only [if_true, List.mem_cons, true_or]
      split
      · cases ra.lines[j] with
        | none => rfl
        | some l => exact Line.released_released l
      · rfl
    · simp only [hi, if_false, List.mem_cons, false_or]

/-! ## Retirement -/

theorem ReadAhead.retire_of_none {ra : ReadAhead} {k : StreamId} (h : ra.streams[k] = none) :
    ra.retire k = ra := by
  unfold ReadAhead.retire
  rw [h]

theorem ReadAhead.retire_of_some {ra : ReadAhead} {k : StreamId} {st : Stream}
    (h : ra.streams[k] = some st) :
    ra.retire k = (ra.releaseAll st.owned).setStream k none := by
  unfold ReadAhead.retire
  rw [h]

/-- A retirement frees its stream and touches no other (R87). -/
theorem ReadAhead.retire_streams (ra : ReadAhead) (k j : StreamId) :
    (ra.retire k).streams[j] = if j = k then none else ra.streams[j] := by
  cases h : ra.streams[k] with
  | none =>
    rw [ReadAhead.retire_of_none h]
    split
    · rename_i hj
      rw [hj, h]
    · rfl
  | some st =>
    rw [ReadAhead.retire_of_some h, ReadAhead.setStream_streams, ReadAhead.releaseAll_streams]

@[simp] theorem ReadAhead.retire_nextFetch (ra : ReadAhead) (k : StreamId) :
    (ra.retire k).nextFetch = ra.nextFetch := by
  cases h : ra.streams[k] with
  | none => rw [ReadAhead.retire_of_none h]
  | some st => rw [ReadAhead.retire_of_some h]; simp

/-- retireIf retires or leaves alone. -/
theorem ReadAhead.retireIf_cases (f : Stream → Bool) (ra : ReadAhead) (k : StreamId) :
    ReadAhead.retireIf f ra k = ra.retire k ∨ ReadAhead.retireIf f ra k = ra := by
  unfold ReadAhead.retireIf
  split
  · exact .inr rfl
  · split
    · exact .inl rfl
    · exact .inr rfl

/-- What every retirement keeps, retiring by a property keeps. -/
theorem ReadAhead.retireWhere_keeps (P : ReadAhead → Prop)
    (step : ∀ ra k, P ra → P (ra.retire k)) (f : Stream → Bool) (ra : ReadAhead) (h : P ra) :
    P (ra.retireWhere f) := by
  unfold ReadAhead.retireWhere
  generalize allStreams = ks
  induction ks generalizing ra with
  | nil => exact h
  | cons k ks ih =>
    rw [List.foldl_cons]
    refine ih _ ?_
    rcases ReadAhead.retireIf_cases f ra k with hc | hc <;> rw [hc]
    · exact step _ _ h
    · exact h

theorem ReadAhead.retireIf_streams (f : Stream → Bool) (ra : ReadAhead) (k j : StreamId) :
    (ReadAhead.retireIf f ra k).streams[j] =
      if j = k then ra.streams[j].filter (fun st => !f st) else ra.streams[j] := by
  unfold ReadAhead.retireIf
  split
  · rename_i h
    split
    · rename_i hj
      subst hj
      rw [h]
      rfl
    · rfl
  · rename_i st h
    by_cases hf : f st = true
    · rw [if_pos hf, ReadAhead.retire_streams]
      split
      · rename_i hj
        subst hj
        rw [h]
        simp [Option.filter, hf]
      · rfl
    · rw [if_neg hf]
      split
      · rename_i hj
        subst hj
        rw [h]
        simp [Option.filter, hf]
      · rfl

/-- The streams left are those without the property. -/
theorem ReadAhead.retireWhere_streams (ra : ReadAhead) (f : Stream → Bool) (j : StreamId) :
    (ra.retireWhere f).streams[j] = ra.streams[j].filter (fun st => !f st) := by
  have fold : ∀ (ks : List StreamId) (ra : ReadAhead),
      (ks.foldl (ReadAhead.retireIf f) ra).streams[j] =
        if j ∈ ks then ra.streams[j].filter (fun st => !f st) else ra.streams[j] := by
    intro ks
    induction ks with
    | nil => intro ra; simp
    | cons k ks ih =>
      intro ra
      rw [List.foldl_cons, ih, ReadAhead.retireIf_streams]
      by_cases hj : j = k
      · subst hj
        simp only [if_true, List.mem_cons, true_or]
        split
        · cases ra.streams[j] with
          | none => rfl
          | some st => by_cases hf : f st = true <;> simp [Option.filter, hf]
        · rfl
      · simp only [hj, if_false, List.mem_cons, false_or]
  have h := fold allStreams ra
  rw [if_pos (mem_allStreams j)] at h
  exact h

/-- Releasing a line twice is releasing it once. -/
theorem Line.bind_released (l : Option Line) :
    (l.bind Line.released).bind Line.released = l.bind Line.released := by
  cases l with
  | none => rfl
  | some l => exact Line.released_released l

/-- A line after one retirement by a property: released exactly when the stream has it and owns the line. -/
theorem ReadAhead.retireIf_lines (f : Stream → Bool) (ra : ReadAhead) (k : StreamId)
    (i : LineId) :
    (ReadAhead.retireIf f ra k).lines[i] =
      if (ra.streams[k].any fun st => f st && decide (i ∈ st.owned)) = true then
        ra.lines[i].bind Line.released
      else ra.lines[i] := by
  unfold ReadAhead.retireIf
  split
  · rename_i h
    rw [h]
    rfl
  · rename_i st h
    rw [h, Option.any_some]
    by_cases hf : f st = true
    · rw [if_pos hf, hf, Bool.true_and, ReadAhead.retire_of_some h, ReadAhead.setStream_lines,
        ReadAhead.releaseAll_lines]
      simp only [decide_eq_true_eq]
    · rw [if_neg hf, if_neg]
      simp [hf]

/-- A line after retirement by a property: released exactly when a stream with the property owns it (R75,
R87). -/
theorem ReadAhead.retireWhere_lines (ra : ReadAhead) (f : Stream → Bool) (i : LineId) :
    (ra.retireWhere f).lines[i] =
      if ∃ k : StreamId, (ra.streams[k].any fun st => f st && decide (i ∈ st.owned)) = true then
        ra.lines[i].bind Line.released
      else ra.lines[i] := by
  have fold : ∀ (ks : List StreamId) (ra : ReadAhead),
      (ks.foldl (ReadAhead.retireIf f) ra).lines[i] =
        if ∃ k ∈ ks, (ra.streams[k].any fun st => f st && decide (i ∈ st.owned)) = true then
          ra.lines[i].bind Line.released
        else ra.lines[i] := by
    intro ks
    induction ks with
    | nil => intro ra; simp
    | cons k ks ih =>
      intro ra
      have left : ∀ j : StreamId, ((ReadAhead.retireIf f ra k).streams[j].any fun st =>
            f st && decide (i ∈ st.owned)) = true ↔
          j ≠ k ∧ (ra.streams[j].any fun st => f st && decide (i ∈ st.owned)) = true := by
        intro j
        rw [ReadAhead.retireIf_streams]
        by_cases hj : j = k
        · rw [if_pos hj]
          cases ra.streams[j] with
          | none => simp
          | some st => by_cases hf : f st = true <;> simp [Option.filter, hf, hj]
        · simp [hj]
      rw [List.foldl_cons, ih, ReadAhead.retireIf_lines]
      simp only [left, List.exists_mem_cons_iff]
      by_cases hk : (ra.streams[k].any fun st => f st && decide (i ∈ st.owned)) = true
      · simp only [hk, if_true, true_or, Line.bind_released, ite_self]
      · have : (∃ j ∈ ks, j ≠ k ∧
              (ra.streams[j].any fun st => f st && decide (i ∈ st.owned)) = true) ↔
            ∃ j ∈ ks, (ra.streams[j].any fun st => f st && decide (i ∈ st.owned)) = true :=
          ⟨fun ⟨j, hj, _, h⟩ => ⟨j, hj, h⟩, fun ⟨j, hj, h⟩ => ⟨j, hj, fun e => hk (e ▸ h), h⟩⟩
        simp only [this, hk, Bool.false_eq_true, if_false, false_or]
  rw [ReadAhead.retireWhere, fold]
  simp only [mem_allStreams, true_and]

/-! ## Top-up -/

theorem ReadAhead.freeLine_some {ra : ReadAhead} {i : LineId} (h : ra.freeLine = some i) :
    ra.lines[i] = none := by
  unfold ReadAhead.freeLine at h
  simpa using List.find?_some h

theorem ReadAhead.freeLine_none {ra : ReadAhead} :
    ra.freeLine = none ↔ ∀ i : LineId, ra.lines[i] ≠ none := by
  unfold ReadAhead.freeLine
  rw [List.find?_eq_none]
  exact ⟨fun h i hi => h i (mem_allLines i) (by rw [hi]; rfl),
    fun h i _ hi => h i (Option.isNone_iff_eq_none.1 hi)⟩

theorem ReadAhead.nextShort_some {ra : ReadAhead} {env : FetchEnv} {k : StreamId}
    (h : ra.nextShort env = some k) :
    ra.isShort env.windows k = true ∧
      ∀ j, ra.isShort env.windows j = true → ra.age env.now k ≤ ra.age env.now j := by
  obtain ⟨hm, hl⟩ := leastBy_some _ _ _ h
  exact ⟨(List.mem_filter.1 hm).2,
    fun j hj => hl j (List.mem_filter.2 ⟨mem_allStreams j, hj⟩)⟩

/-- A creation takes a FREE line for a short stream (R76, R77). -/
theorem ReadAhead.topUpOnce_some {ra ra' : ReadAhead} {env : FetchEnv}
    (h : ra.topUpOnce env = some ra') :
    ∃ k i st, ra.nextShort env = some k ∧ ra.freeLine = some i ∧ ra.streams[k] = some st ∧
      st.short env.windows = true ∧ ra.lines[i] = none ∧ ra' = ra.createLine env k st i := by
  unfold ReadAhead.topUpOnce at h
  split at h
  · rename_i k i hk hi
    split at h
    · cases h
    · rename_i st hst
      injection h with h
      refine ⟨k, i, st, hk, hi, hst, ?_, ReadAhead.freeLine_some hi, h.symm⟩
      have := (ReadAhead.nextShort_some hk).1
      unfold ReadAhead.isShort at this
      rw [hst] at this
      exact this
  · cases h

/-- What every creation keeps, a top-up pass keeps. -/
theorem ReadAhead.topUp_keeps (P : ReadAhead → Prop) (env : FetchEnv)
    (step : ∀ ra k i st, ra.streams[k] = some st → st.short env.windows = true →
      ra.lines[i] = none → P ra → P (ra.createLine env k st i))
    (ra : ReadAhead) (h : P ra) : P (ra.topUp env) := by
  unfold ReadAhead.topUp
  generalize 16 = fuel
  induction fuel generalizing ra with
  | zero => exact h
  | succ fuel ih =>
    unfold ReadAhead.topUpFor
    split
    · exact h
    · rename_i ra' hr
      obtain ⟨k, i, st, _, _, hst, hs, hn, rfl⟩ := ReadAhead.topUpOnce_some hr
      exact ih _ (step ra k i st hst hs hn h)

theorem ReadAhead.createLine_lines (ra : ReadAhead) (env : FetchEnv) (k : StreamId) (st : Stream)
    (i j : LineId) :
    (ra.createLine env k st i).lines[j] =
      if j = i then some (newLine env k st ra.nextFetch) else ra.lines[j] :=
  ReadAhead.setLine_lines _ _ _ _

theorem ReadAhead.createLine_streams (ra : ReadAhead) (env : FetchEnv) (k : StreamId)
    (st : Stream) (i : LineId) (j : StreamId) :
    (ra.createLine env k st i).streams[j] =
      if j = k then some { st with owned := st.owned ++ [i], nextLine := st.nextLine + 64 }
      else ra.streams[j] :=
  ReadAhead.setStream_streams _ _ _ _

@[simp] theorem ReadAhead.createLine_nextFetch (ra : ReadAhead) (env : FetchEnv) (k : StreamId)
    (st : Stream) (i : LineId) : (ra.createLine env k st i).nextFetch = ra.nextFetch + 1 := rfl

/-- A top-up pass changes no line that is not FREE. -/
theorem ReadAhead.topUp_lines_of_some {ra : ReadAhead} (env : FetchEnv) {i : LineId} {l : Line}
    (h : ra.lines[i] = some l) : (ra.topUp env).lines[i] = some l := by
  refine ReadAhead.topUp_keeps (fun ra => ra.lines[i] = some l) env ?_ ra h
  intro ra k j st _ _ hn h
  rw [ReadAhead.createLine_lines, if_neg]
  · exact h
  · rintro rfl
    rw [h] at hn
    cases hn

/-- A line after a top-up pass was there before, or is a new one (R76). -/
theorem ReadAhead.topUp_lines (ra : ReadAhead) (env : FetchEnv) (i : LineId) (l : Line)
    (h : (ra.topUp env).lines[i] = some l) :
    ra.lines[i] = some l ∨
      (ra.lines[i] = none ∧ ∃ k st, l = newLine env k st l.order) := by
  have key := ReadAhead.topUp_keeps (fun x => (∀ l, ra.lines[i] = some l → x.lines[i] = some l) ∧
      ∀ l, x.lines[i] = some l → ra.lines[i] = some l ∨
        (ra.lines[i] = none ∧ ∃ k st, l = newLine env k st l.order)) env ?_ ra
    ⟨fun l hl => hl, fun l hl => .inl hl⟩
  · exact key.2 l h
  intro x k j st _ _ hn ih
  by_cases hij : i = j
  · have hx : x.lines[i] = none := by rw [hij]; exact hn
    have hr : ra.lines[i] = none := by
      cases hr : ra.lines[i] with
      | none => rfl
      | some l => rw [ih.1 l hr] at hx; cases hx
    refine ⟨fun l hl => ?_, fun l hl => ?_⟩
    · rw [hr] at hl
      cases hl
    · rw [ReadAhead.createLine_lines, if_pos hij] at hl
      injection hl with hl
      subst hl
      exact .inr ⟨hr, k, st, rfl⟩
  · refine ⟨fun l hl => ?_, fun l hl => ?_⟩
    · rw [ReadAhead.createLine_lines, if_neg hij]
      exact ih.1 l hl
    · rw [ReadAhead.createLine_lines, if_neg hij] at hl
      exact ih.2 l hl

/-- A stream after a top-up pass: FREE if it was, else the same stream with lines added at its end, one for
each 64 bytes its next line moved. -/
theorem ReadAhead.topUp_streams (ra : ReadAhead) (env : FetchEnv) (k : StreamId) :
    (ra.streams[k] = none → (ra.topUp env).streams[k] = none) ∧
    ∀ st, ra.streams[k] = some st → ∃ added : List LineId,
      (ra.topUp env).streams[k] = some { st with
        owned := st.owned ++ added, nextLine := st.nextLine + 64 * added.length } := by
  refine ReadAhead.topUp_keeps (fun x => (ra.streams[k] = none → x.streams[k] = none) ∧
    ∀ st, ra.streams[k] = some st → ∃ added : List LineId,
      x.streams[k] = some { st with
        owned := st.owned ++ added, nextLine := st.nextLine + 64 * added.length }) env ?_ ra
    ⟨fun h => h, fun st h => ⟨[], by simp [h]⟩⟩
  intro x j i xst hx _ _ ih
  rw [ReadAhead.createLine_streams]
  by_cases hk : k = j
  · subst hk
    refine ⟨fun hn => absurd (ih.1 hn) (by rw [hx]; exact Option.some_ne_none _), fun st hst => ?_⟩
    obtain ⟨added, ha⟩ := ih.2 st hst
    rw [hx] at ha
    injection ha with ha
    refine ⟨added ++ [i], ?_⟩
    rw [if_pos rfl, ha]
    simp only [List.append_assoc, List.length_append, List.length_singleton, Option.some.injEq,
      Stream.mk.injEq, true_and, and_true]
    omega
  · rw [if_neg hk]
    exact ih

/-- The FREE lines, counted. -/
theorem ReadAhead.createLine_free (ra : ReadAhead) (env : FetchEnv) (k : StreamId) (st : Stream)
    (i : LineId) (h : ra.lines[i] = none) :
    (Finset.univ.filter fun j : LineId => (ra.createLine env k st i).lines[j] = none).card + 1 ≤
      (Finset.univ.filter fun j : LineId => ra.lines[j] = none).card := by
  have hlt : (Finset.univ.filter fun j : LineId => (ra.createLine env k st i).lines[j] = none) ⊂
      (Finset.univ.filter fun j : LineId => ra.lines[j] = none) := by
    refine (Finset.ssubset_iff_of_subset ?_).2 ⟨i, by simpa using h, ?_⟩
    · intro j hj
      rw [Finset.mem_filter, ReadAhead.createLine_lines] at hj
      refine Finset.mem_filter.2 ⟨Finset.mem_univ _, ?_⟩
      by_cases hij : j = i
      · rw [if_pos hij] at hj
        cases hj.2
      · rw [if_neg hij] at hj
        exact hj.2
    · rw [Finset.mem_filter, ReadAhead.createLine_lines, if_pos rfl]
      exact fun hj => by cases hj.2
  exact Finset.card_lt_card hlt

/-- A top-up pass ends when nothing more can be created (R77). -/
theorem ReadAhead.topUp_done (ra : ReadAhead) (env : FetchEnv) :
    (ra.topUp env).topUpOnce env = none := by
  suffices hs : ∀ (fuel : Nat) (ra : ReadAhead),
      (Finset.univ.filter fun j : LineId => ra.lines[j] = none).card ≤ fuel →
      (ReadAhead.topUpFor env fuel ra).topUpOnce env = none from
    hs 16 ra ((Finset.card_le_univ _).trans (by simp))
  intro fuel
  induction fuel with
  | zero =>
    intro ra h
    have hf : ra.freeLine = none := by
      rw [ReadAhead.freeLine_none]
      intro i hi
      have := Finset.card_eq_zero.1 (Nat.le_zero.1 h)
      rw [Finset.filter_eq_empty_iff] at this
      exact this (Finset.mem_univ i) hi
    unfold ReadAhead.topUpFor ReadAhead.topUpOnce
    rw [hf]
    split
    · rename_i hx
      cases hx
    · rfl
  | succ fuel ih =>
    intro ra h
    unfold ReadAhead.topUpFor
    split
    · rename_i hn
      exact hn
    · rename_i ra' hr
      obtain ⟨k, i, st, _, _, _, _, hn, rfl⟩ := ReadAhead.topUpOnce_some hr
      have := ReadAhead.createLine_free ra env k st i hn
      exact ih _ (by omega)

/-- A top-up pass that can create nothing changes nothing. -/
theorem ReadAhead.topUp_of_none {ra : ReadAhead} {env : FetchEnv}
    (h : ra.topUpOnce env = none) : ra.topUp env = ra := by
  unfold ReadAhead.topUp ReadAhead.topUpFor
  rw [h]

/-- A top-up pass is its first creation and the pass that follows (R77). -/
theorem ReadAhead.topUp_of_some {ra first : ReadAhead} {env : FetchEnv}
    (h : ra.topUpOnce env = some first) : ra.topUp env = first.topUp env := by
  have more : ∀ (fuel : Nat) (ra : ReadAhead),
      (ReadAhead.topUpFor env fuel ra).topUpOnce env = none →
      ReadAhead.topUpFor env (fuel + 1) ra = ReadAhead.topUpFor env fuel ra := by
    intro fuel
    induction fuel with
    | zero =>
      intro ra hd
      unfold ReadAhead.topUpFor at hd ⊢
      rw [hd]
    | succ fuel ih =>
      intro ra hd
      unfold ReadAhead.topUpFor at hd ⊢
      cases hn : ra.topUpOnce env with
      | none => rfl
      | some next =>
        rw [hn] at hd
        exact ih next hd
  have hd : ReadAhead.topUpFor env 17 ra = ra.topUp env := more 16 ra (ra.topUp_done env)
  rw [← hd, ReadAhead.topUpFor, h]
  rfl

/-- What a hit or an attach does to the stream that owns the line (R74). -/
theorem ReadAhead.use_of_owner {ra : ReadAhead} {i : LineId} {l : Line} {k : StreamId}
    {st : Stream} (env : FetchEnv) (hl : ra.lines[i] = some l) (ho : l.owner = some k)
    (hs : ra.streams[k] = some st) :
    ra.use env i = ((ra.releaseAll (st.owned.takeWhile fun j => j ≠ i)).setStream k
      (some { st with
        owned := st.owned.dropWhile fun j => j ≠ i, lastUse := env.now })).topUp env := by
  unfold ReadAhead.use
  simp only [hl, ho, hs]

/-- Without an ACTIVE stream a top-up pass creates nothing. -/
theorem ReadAhead.topUp_of_no_streams {ra : ReadAhead} (env : FetchEnv)
    (h : ∀ k : StreamId, ra.streams[k] = none) : ra.topUp env = ra := by
  apply ReadAhead.topUp_of_none
  have hs : ra.nextShort env = none := by
    unfold ReadAhead.nextShort
    rw [leastBy_eq_none, List.filter_eq_nil_iff]
    intro k _
    unfold ReadAhead.isShort
    rw [h k]
    exact Bool.false_ne_true
  unfold ReadAhead.topUpOnce
  rw [hs]

@[simp] theorem ReadAhead.retireWhere_nextFetch (ra : ReadAhead) (f : Stream → Bool) :
    (ra.retireWhere f).nextFetch = ra.nextFetch :=
  ReadAhead.retireWhere_keeps (fun x => x.nextFetch = ra.nextFetch)
    (fun x k h => (x.retire_nextFetch k).trans h) f ra rfl

/-- A purge retires every stream, and the pass that follows creates nothing (R92, R102). -/
theorem ReadAhead.purge_eq (ra : ReadAhead) (env : FetchEnv) :
    ra.purge env = ra.retireWhere (fun _ => true) ∧
      ∀ k : StreamId, (ra.purge env).streams[k] = none := by
  have hs : ∀ k : StreamId, (ra.retireWhere fun _ => true).streams[k] = none := by
    intro k
    rw [ReadAhead.retireWhere_streams]
    cases ra.streams[k] <;> rfl
  have he : ra.purge env = ra.retireWhere (fun _ => true) :=
    ReadAhead.topUp_of_no_streams env hs
  exact ⟨he, fun k => by rw [he]; exact hs k⟩

/-- With every stream FREE, a purge changes nothing. -/
theorem ReadAhead.purge_of_no_streams {ra : ReadAhead} (env : FetchEnv)
    (h : ∀ k : StreamId, ra.streams[k] = none) : ra.purge env = ra := by
  have hr : ∀ (ks : List StreamId),
      ks.foldl (ReadAhead.retireIf fun _ => true) ra = ra := by
    intro ks
    induction ks with
    | nil => rfl
    | cons k ks ih =>
      have hk : ReadAhead.retireIf (fun _ => true) ra k = ra := by
        unfold ReadAhead.retireIf
        rw [h k]
      rw [List.foldl_cons, hk, ih]
  rw [(ra.purge_eq env).1]
  exact hr allStreams

end Sys2Proof.Machine
end

