-- ==== Sys2Proof/Laws/WriteQueue.lean ====
section
/-! SUPPORT. The write queue's operations, said once: what a departure and a failure of the head record leave alone, what
WAIT counts become, and what one report does to a fence's horizon. -/

namespace Sys2Proof.Machine

/-! ## Folds -/

/-- What each step of a fold leaves alone, the fold leaves alone. -/
theorem foldl_keeps {α β γ : Type} (f : α → β → α) (g : α → γ) (h : ∀ a b, g (f a b) = g a)
    (l : List β) (a : α) : g (l.foldl f a) = g a := by
  induction l generalizing a with
  | nil => rfl
  | cons b l ih => rw [List.foldl_cons, ih, h]

/-! ## Wait counts -/

/-- A tolerated WAIT adds 1 to the count, which stops at 65535 only when the limit is UNLIMITED (R30, R56, R84). -/
theorem afterWait_eq_some {limit : RetryLimit} {count n : Nat} (h : afterWait limit count = some n) :
    (limit = .unlimited ∧ n = min (count + 1) 65535) ∨
      (∃ b, limit.bound = some b ∧ count < b ∧ n = count + 1) := by
  unfold afterWait at h
  split at h
  · rename_i hb
    injection h with h
    cases limit <;> first | (cases hb; done) | exact .inl ⟨rfl, h.symm⟩
  · rename_i b hb
    split at h
    · rename_i hlt
      injection h with h
      exact .inr ⟨b, hb, hlt, h.symm⟩
    · cases h

/-- A WAIT ends a retry exactly when the limit is spent. -/
theorem afterWait_eq_none {limit : RetryLimit} {count : Nat} :
    afterWait limit count = none ↔ ∃ b, limit.bound = some b ∧ b ≤ count := by
  unfold afterWait
  split
  · rename_i hb
    simp [hb]
  · rename_i b hb
    simp [hb]

/-! ## Reports to fences -/

/-- A horizon only shrinks, and it keeps the places that were not reported. -/
theorem FenceFields.report_horizon (f : FenceFields) (r : Report) (p : Nat) :
    p ∈ (f.report r).horizon ↔ p ∈ f.horizon ∧ p ≠ r.1.place := by
  unfold FenceFields.report
  split
  · simp
  · rename_i h
    exact ⟨fun hp => ⟨hp, fun e => h (e ▸ hp)⟩, fun hp => hp.1⟩

theorem FenceFields.reportAll_horizon (f : FenceFields) (rs : List Report) (p : Nat) :
    p ∈ (f.reportAll rs).horizon ↔ p ∈ f.horizon ∧ ∀ r ∈ rs, p ≠ r.1.place := by
  unfold FenceFields.reportAll
  induction rs generalizing f with
  | nil => simp
  | cons r rs ih =>
    rw [List.foldl_cons, ih, FenceFields.report_horizon]
    simp only [List.mem_cons, forall_eq_or_imp, and_assoc]

/-- A report leaves scope, purge flag and dropped-seen alone. -/
theorem FenceFields.report_fixed (f : FenceFields) (r : Report) :
    (f.report r).scope = f.scope ∧ (f.report r).purge = f.purge ∧
      (f.report r).droppedSeen = f.droppedSeen := by
  unfold FenceFields.report
  split <;> exact ⟨rfl, rfl, rfl⟩

/-- A fence after the reports of one event, each record reported once (R98, R99). -/
theorem FenceFields.reportAll_eq (f : FenceFields) (rs : List Report)
    (hn : (rs.map fun x => x.1.place).Nodup) :
    f.reportAll rs = { f with
      horizon := f.horizon.filter fun p => !(rs.map fun x => x.1.place).contains p
      failedCount := f.failedCount +
        rs.countP fun x => f.horizon.contains x.1.place && x.2.isFailure
      poisonedSeen := f.poisonedSeen ||
        rs.any fun x => f.horizon.contains x.1.place && (x.1.poison && x.2.wasIssued) } := by
  unfold FenceFields.reportAll
  induction rs generalizing f with
  | nil => simp
  | cons r rs ih =>
    rw [List.map_cons, List.nodup_cons] at hn
    rw [List.foldl_cons, ih _ hn.2]
    have held : ∀ x ∈ rs,
        (f.report r).horizon.contains x.1.place = f.horizon.contains x.1.place := by
      intro x hx
      have hne : x.1.place ≠ r.1.place := fun e => hn.1 (e ▸ List.mem_map.2 ⟨x, hx, rfl⟩)
      rw [Bool.eq_iff_iff]
      simp only [List.contains_iff_mem, FenceFields.report_horizon]
      exact ⟨fun h => h.1, fun h => ⟨h, hne⟩⟩
    have count : (rs.countP fun x => (f.report r).horizon.contains x.1.place && x.2.isFailure) =
        rs.countP fun x => f.horizon.contains x.1.place && x.2.isFailure :=
      List.countP_congr fun x hx => by rw [held x hx]
    have seen : (rs.any fun x =>
          (f.report r).horizon.contains x.1.place && (x.1.poison && x.2.wasIssued)) =
        rs.any fun x => f.horizon.contains x.1.place && (x.1.poison && x.2.wasIssued) := by
      rw [Bool.eq_iff_iff, List.any_eq_true, List.any_eq_true]
      exact exists_congr fun x => and_congr_right fun hx => by rw [held x hx]
    rw [count, seen]
    by_cases hr : r.1.place ∈ f.horizon
    · unfold FenceFields.report
      simp only [hr, if_true, List.filter_filter, List.countP_cons, List.any_cons,
        List.contains_iff_mem.2 hr, Bool.true_and, Bool.or_assoc, List.map_cons,
        FenceFields.mk.injEq, true_and, and_true]
      refine ⟨?_, by omega⟩
      apply List.filter_congr
      intro x _
      rw [List.contains_cons, Bool.not_or, Bool.and_comm, beq_eq_decide, decide_not]
    · unfold FenceFields.report
      have hc : f.horizon.contains r.1.place = false := by simpa using hr
      simp only [hr, if_false, List.countP_cons, List.any_cons, hc, Bool.false_and,
        Bool.false_or, Bool.false_eq_true, Nat.add_zero, List.map_cons, FenceFields.mk.injEq,
        true_and, and_true]
      apply List.filter_congr
      intro x hx
      have hne : (x == r.1.place) = false := by
        rw [beq_eq_false_iff_ne]
        rintro rfl
        exact hr hx
      rw [List.contains_cons, hne, Bool.false_or]

@[simp] theorem Entry.reported_place (rs : List Report) (e : Entry) :
    (e.reported rs).place = e.place := by
  unfold Entry.reported
  split <;> rfl

@[simp] theorem Entry.reported_port (rs : List Report) (e : Entry) :
    (e.reported rs).port = e.port := by
  unfold Entry.reported
  split <;> rfl

@[simp] theorem Entry.reported_tag (rs : List Report) (e : Entry) :
    (e.reported rs).tag = e.tag := by
  unfold Entry.reported
  split <;> rfl

@[simp] theorem Entry.reported_state (rs : List Report) (e : Entry) :
    (e.reported rs).state = e.state := by
  unfold Entry.reported
  split <;> rfl

/-! ## Entries that become DONE one after another -/

/-- The port of the entry at a place does not change when an entry becomes DONE. -/
theorem State.finish_entryPort (s : State) (place at_ : Nat) (status : Status)
    (data : List Byte) (p : PortId) :
    ((s.finish place status data).entryAt at_).any (fun e => decide (e.port = p)) =
      (s.entryAt at_).any (fun e => decide (e.port = p)) := by
  unfold State.entryAt
  rw [State.finish_tracker, setEntryState]
  induction s.tracker with
  | nil => rfl
  | cons e t ih =>
    rw [List.map_cons, List.find?_cons, List.find?_cons]
    have hp : (if e.place = place then { e with state := .done status data } else e).place =
        e.place := by split <;> rfl
    rw [hp]
    split
    · simp only [Option.any_some]
      split <;> rfl
    · exact ih

/-- An entry whose place is not named stays as it is. -/
theorem foldl_setEntryState_keeps (xs : List (Nat × EntryState)) (tracker : List Entry) (e : Entry)
    (he : e ∈ tracker) (hx : e.place ∉ xs.map Prod.fst) :
    e ∈ xs.foldl (fun t x => setEntryState t x.1 x.2) tracker := by
  induction xs generalizing tracker with
  | nil => exact he
  | cons x xs ih =>
    rw [List.map_cons, List.mem_cons, not_or] at hx
    exact ih _ (mem_setEntryState.2 (.inl ⟨he, hx.1⟩)) hx.2

/-- An entry whose place is named, once, takes the state named with it. -/
theorem foldl_setEntryState_sets (xs : List (Nat × EntryState)) (tracker : List Entry) (e : Entry)
    (he : e ∈ tracker) (state : EntryState) (hx : (e.place, state) ∈ xs)
    (hn : (xs.map Prod.fst).Nodup) :
    { e with state := state } ∈ xs.foldl (fun t x => setEntryState t x.1 x.2) tracker := by
  induction xs generalizing tracker with
  | nil => cases hx
  | cons x xs ih =>
    rw [List.map_cons, List.nodup_cons] at hn
    rcases List.mem_cons.1 hx with rfl | h
    · exact foldl_setEntryState_keeps xs _ _ (mem_setEntryState.2 (.inr ⟨e, he, rfl, rfl⟩)) hn.1
    · refine ih _ (mem_setEntryState.2 (.inl ⟨he, fun h1 => ?_⟩)) h hn.2
      exact hn.1 (h1 ▸ List.mem_map.2 ⟨_, h, rfl⟩)

/-- The tracker when entries become DONE one after another with one status and no data. -/
theorem State.foldl_finish_tracker (places : List Nat) (status : Status) (s : State) :
    (places.foldl (State.finish · · status []) s).tracker =
      (places.map fun place => (place, EntryState.done status [])).foldl
        (fun t x => setEntryState t x.1 x.2) s.tracker := by
  induction places generalizing s with
  | nil => rfl
  | cons place places ih =>
    rw [List.foldl_cons, ih, State.finish_tracker, List.map_cons, List.foldl_cons]

/-- A port's list then: the places of its own entries join its end in the order named (R63). -/
theorem State.foldl_finish_done (places : List Nat) (status : Status) (s : State) (p : PortId) :
    ((places.foldl (State.finish · · status []) s).port p).done = (s.port p).done ++
      places.filter fun place => (s.entryAt place).any fun e => decide (e.port = p) := by
  induction places generalizing s with
  | nil => rw [List.filter_nil, List.append_nil]; rfl
  | cons place places ih =>
    rw [List.foldl_cons, ih, State.finish_done]
    simp only [State.finish_entryPort, List.filter_cons]
    split <;> simp

/-- A departing record's end of its entry, or nothing if it has no link (R29, R35, R40). -/
theorem State.endEntry_eq (s : State) (r : Report) :
    (r.1.link = none → s.endEntry r = s) ∧
      ∀ place, r.1.link = some place →
        s.endEntry r = s.finish place (r.2.status r.1.poison) [] := by
  unfold State.endEntry
  cases r.1.link with
  | none => exact ⟨fun _ => rfl, fun _ h => by cases h⟩
  | some place => exact ⟨fun h => (by cases h), fun _ h => by cases h; rfl⟩

/-- A fence's end outside the read-ahead unit is its entry's (R100, R102). -/
theorem State.finishFence_eq (s : State) (place : Nat) (f : FenceFields) :
    s.finishFence place f = { s.finish place f.status [] with
      readAhead := if f.purge then s.readAhead.purge s.fetchEnv else s.readAhead } := by
  have hr : (s.finish place f.status []).readAhead = s.readAhead := by simp
  have he : (s.finish place f.status []).fetchEnv = s.fetchEnv := by simp [State.fetchEnv]
  unfold State.finishFence
  rw [← hr, ← he]
  split <;> rfl

/-! ## Departures -/

namespace State

variable (s : State)

@[simp] theorem finishFences_pins (done : List (Nat × FenceFields)) :
    (s.finishFences done).pins = s.pins :=
  foldl_keeps _ State.pins (fun _ _ => by simp) done s

@[simp] theorem finishFences_startUp (done : List (Nat × FenceFields)) :
    (s.finishFences done).startUp = s.startUp :=
  foldl_keeps _ State.startUp (fun _ _ => by simp) done s

@[simp] theorem finishFences_table (done : List (Nat × FenceFields)) :
    (s.finishFences done).table = s.table :=
  foldl_keeps _ State.table (fun _ _ => by simp) done s

@[simp] theorem finishFences_queue (done : List (Nat × FenceFields)) :
    (s.finishFences done).queue = s.queue :=
  foldl_keeps _ State.queue (fun _ _ => by simp) done s

@[simp] theorem finishFences_nextPlace (done : List (Nat × FenceFields)) :
    (s.finishFences done).nextPlace = s.nextPlace :=
  foldl_keeps _ State.nextPlace (fun _ _ => by simp) done s

@[simp] theorem finishFences_memPort (done : List (Nat × FenceFields)) :
    (s.finishFences done).memPort = s.memPort :=
  foldl_keeps _ State.memPort (fun _ _ => by simp) done s

@[simp] theorem finishFences_log (done : List (Nat × FenceFields)) :
    (s.finishFences done).log = s.log :=
  foldl_keeps _ State.log (fun _ _ => by simp) done s

@[simp] theorem finishFences_alertLine (done : List (Nat × FenceFields)) :
    (s.finishFences done).alertLine = s.alertLine :=
  foldl_keeps _ State.alertLine (fun _ _ => by simp) done s

@[simp] theorem finishFences_maint (done : List (Nat × FenceFields)) :
    (s.finishFences done).maint = s.maint :=
  foldl_keeps _ State.maint (fun _ _ => by simp) done s

@[simp] theorem finishFences_quiesce (done : List (Nat × FenceFields)) :
    (s.finishFences done).quiesce = s.quiesce :=
  foldl_keeps _ State.quiesce (fun _ _ => by simp) done s

@[simp] theorem finishFences_pending (done : List (Nat × FenceFields)) :
    (s.finishFences done).pending = s.pending :=
  foldl_keeps _ State.pending (fun _ _ => by simp) done s

@[simp] theorem finishFences_images (done : List (Nat × FenceFields)) :
    (s.finishFences done).images = s.images :=
  foldl_keeps _ State.images (fun _ _ => by simp) done s

@[simp] theorem depart_pins (rest : List WriteRecord) (rs : List Report) :
    (s.depart rest rs).pins = s.pins := by
  unfold State.depart
  rw [weighReads_pins, finishFences_pins, foldl_keeps _ State.pins (fun _ _ => by simp)]
  exact foldl_keeps _ State.pins (fun _ _ => by simp) rs _

@[simp] theorem depart_startUp (rest : List WriteRecord) (rs : List Report) :
    (s.depart rest rs).startUp = s.startUp := by
  unfold State.depart
  rw [weighReads_startUp, finishFences_startUp, foldl_keeps _ State.startUp (fun _ _ => by simp)]
  exact foldl_keeps _ State.startUp (fun _ _ => by simp) rs _

@[simp] theorem depart_table (rest : List WriteRecord) (rs : List Report) :
    (s.depart rest rs).table = s.table := by
  unfold State.depart
  rw [weighReads_table, finishFences_table, foldl_keeps _ State.table (fun _ _ => by simp)]
  exact foldl_keeps _ State.table (fun _ _ => by simp) rs _

@[simp] theorem depart_nextPlace (rest : List WriteRecord) (rs : List Report) :
    (s.depart rest rs).nextPlace = s.nextPlace := by
  unfold State.depart
  rw [weighReads_nextPlace, finishFences_nextPlace, foldl_keeps _ State.nextPlace (fun _ _ => by simp)]
  exact foldl_keeps _ State.nextPlace (fun _ _ => by simp) rs _

@[simp] theorem depart_memPort (rest : List WriteRecord) (rs : List Report) :
    (s.depart rest rs).memPort = s.memPort := by
  unfold State.depart
  rw [weighReads_memPort, finishFences_memPort, foldl_keeps _ State.memPort (fun _ _ => by simp)]
  exact foldl_keeps _ State.memPort (fun _ _ => by simp) rs _

@[simp] theorem depart_log (rest : List WriteRecord) (rs : List Report) :
    (s.depart rest rs).log = s.log := by
  unfold State.depart
  rw [weighReads_log, finishFences_log, foldl_keeps _ State.log (fun _ _ => by simp)]
  exact foldl_keeps _ State.log (fun _ _ => by simp) rs _

@[simp] theorem depart_alertLine (rest : List WriteRecord) (rs : List Report) :
    (s.depart rest rs).alertLine = s.alertLine := by
  unfold State.depart
  rw [weighReads_alertLine, finishFences_alertLine, foldl_keeps _ State.alertLine (fun _ _ => by simp)]
  exact foldl_keeps _ State.alertLine (fun _ _ => by simp) rs _

@[simp] theorem depart_maint (rest : List WriteRecord) (rs : List Report) :
    (s.depart rest rs).maint = s.maint := by
  unfold State.depart
  rw [weighReads_maint, finishFences_maint, foldl_keeps _ State.maint (fun _ _ => by simp)]
  exact foldl_keeps _ State.maint (fun _ _ => by simp) rs _

@[simp] theorem depart_quiesce (rest : List WriteRecord) (rs : List Report) :
    (s.depart rest rs).quiesce = s.quiesce := by
  unfold State.depart
  rw [weighReads_quiesce, finishFences_quiesce, foldl_keeps _ State.quiesce (fun _ _ => by simp)]
  exact foldl_keeps _ State.quiesce (fun _ _ => by simp) rs _

@[simp] theorem depart_pending (rest : List WriteRecord) (rs : List Report) :
    (s.depart rest rs).pending = s.pending := by
  unfold State.depart
  rw [weighReads_pending, finishFences_pending, foldl_keeps _ State.pending (fun _ _ => by simp)]
  exact foldl_keeps _ State.pending (fun _ _ => by simp) rs _

@[simp] theorem depart_images (rest : List WriteRecord) (rs : List Report) :
    (s.depart rest rs).images = s.images := by
  unfold State.depart
  rw [weighReads_images, finishFences_images, foldl_keeps _ State.images (fun _ _ => by simp)]
  exact foldl_keeps _ State.images (fun _ _ => by simp) rs _

/-- The queue after the departures of an event. -/
@[simp] theorem depart_queue (rest : List WriteRecord) (rs : List Report) :
    (s.depart rest rs).queue = rest := by
  unfold State.depart
  rw [weighReads_queue, finishFences_queue, foldl_keeps _ State.queue (fun _ _ => by simp)]
  exact foldl_keeps _ State.queue (fun _ _ => by simp) rs _

/-! ## Failures -/

@[simp] theorem headFails_pins (head : WriteRecord) (rest : List WriteRecord)
    (cause : MemCause) : (s.headFails head rest cause).pins = s.pins := by
  unfold State.headFails State.postedFails State.postedFreezes
  split
  · split <;> simp
  · split <;> simp

@[simp] theorem headFails_startUp (head : WriteRecord) (rest : List WriteRecord)
    (cause : MemCause) : (s.headFails head rest cause).startUp = s.startUp := by
  unfold State.headFails State.postedFails State.postedFreezes
  split
  · split <;> simp
  · split <;> simp

@[simp] theorem headFails_nextPlace (head : WriteRecord) (rest : List WriteRecord)
    (cause : MemCause) : (s.headFails head rest cause).nextPlace = s.nextPlace := by
  unfold State.headFails State.postedFails State.postedFreezes
  split
  · split <;> simp
  · split <;> simp

@[simp] theorem headFails_memPort (head : WriteRecord) (rest : List WriteRecord)
    (cause : MemCause) : (s.headFails head rest cause).memPort = s.memPort := by
  unfold State.headFails State.postedFails State.postedFreezes
  split
  · split <;> simp
  · split <;> simp

@[simp] theorem headFails_alertLine (head : WriteRecord) (rest : List WriteRecord)
    (cause : MemCause) : (s.headFails head rest cause).alertLine = s.alertLine := by
  unfold State.headFails State.postedFails State.postedFreezes
  split
  · split <;> simp
  · split <;> simp

@[simp] theorem headFails_maint (head : WriteRecord) (rest : List WriteRecord)
    (cause : MemCause) : (s.headFails head rest cause).maint = s.maint := by
  unfold State.headFails State.postedFails State.postedFreezes
  split
  · split <;> simp
  · split <;> simp

@[simp] theorem headFails_quiesce (head : WriteRecord) (rest : List WriteRecord)
    (cause : MemCause) : (s.headFails head rest cause).quiesce = s.quiesce := by
  unfold State.headFails State.postedFails State.postedFreezes
  split
  · split <;> simp
  · split <;> simp

@[simp] theorem headFails_pending (head : WriteRecord) (rest : List WriteRecord)
    (cause : MemCause) : (s.headFails head rest cause).pending = s.pending := by
  unfold State.headFails State.postedFails State.postedFreezes
  split
  · split <;> simp
  · split <;> simp

@[simp] theorem headFails_images (head : WriteRecord) (rest : List WriteRecord)
    (cause : MemCause) : (s.headFails head rest cause).images = s.images := by
  unfold State.headFails State.postedFails State.postedFreezes
  split
  · split <;> simp
  · split <;> simp

end State

end Sys2Proof.Machine
end

