-- ==== Sys2Proof/Tests/Slice0.lean ====
section
/-! SUPPORT. Small tests: the WellFormed smoke, the layouts and check words of the manual, one or two steps for each command,
and a witness for the hypotheses of each obligation that has some. -/

namespace Sys2Proof.Tests

open Sys2Proof.Machine

set_option Elab.async false

/-! ## Helpers -/

/-- The state after a command; a command that gave none would leave the state (none does). -/
def after (i : Instr) (s : State) : State :=
  match exec i s with
  | .next t => t
  | .fault _ => s
  | .refused _ => s

/-- An enabled window of 4 KiB. -/
def window (base target : Addr) : Window :=
  { state := .enabled, dropCount := 0,
    fields :=
      { base := base, sizeCode := 0, targetBase := target, access := .writable, order := .relaxed,
        depth := 0, lane := .asIs, retry := .eight, fault := .goOn } }

/-- Window 0 reads ahead and freezes, window 1 is strict, window 2 is FROZEN, window 3 is READ_ONLY. -/
def windows : List Window :=
  [ { window 0x0000 0x10000 with
      fields := { (window 0x0000 0x10000).fields with depth := 2, fault := .freeze } },
    { window 0x1000 0x10000 with
      fields := { (window 0x1000 0x10000).fields with order := .strict } },
    { window 0x2000 0x20000 with
      state := .frozen, fields := { (window 0x2000 0x20000).fields with fault := .freeze } },
    { window 0x3000 0x30000 with
      fields := { (window 0x3000 0x30000).fields with access := .readOnly } } ]

/-- An ACTIVE port whose master holds every default credit. -/
def openPort : Port :=
  { Port.powerOn false true with
    state := .active, writeHeld := 16, writeOwed := 0, requestHeld := 8, requestOwed := 0 }

/-- A RUNNING part with both ports ACTIVE and nothing in flight. -/
def live : State :=
  { State.reset with
    startUp := { State.reset.startUp with partState := .running, loadResult := .ok, counter := 100 }
    table :=
      { windows := vecOf 8 fun i => windows.getD i Window.zero, catchAll := CatchAll.fallback }
    portA := openPort
    portB := openPort
    alertLine := true }

/-- A RUNNING part with a frame arriving. -/
def framed : State :=
  { live with
    pins := { live.pins with select := true }
    maint := { frame := .receiving, commandPart := [], response := [] } }

/-- Bytes of a link with good parity. -/
def onLink (bytes : List Byte) : List LinkByte :=
  bytes.map withParity

/-- A READ after its kind byte (Table 11-1). -/
def readMessage (tag length : Byte) (a : Addr) : List LinkByte :=
  onLink ([0, tag, length] ++ addrBytes a)

/-- A WRITE after its kind byte (Table 11-1). -/
def writeMessage (ack tag : Byte) (a : Addr) (data : List Byte) : List LinkByte :=
  onLink ([ack, tag, byteOf data.length] ++ addrBytes a ++ data)

/-- A four-byte write record of window 0, from Port A. -/
def record (place : Nat) (tag : Option Byte) (state : RecordState) : WriteRecord :=
  { place := place, port := .a, window := .window 0, line := 0x10000,
    mask := spanMask .asIs 0 4, data := vecOf 64 fun _ => 0, poison := false, ackTag := tag,
    link := tag.map fun _ => place, retry := .eight, fault := .freeze, waitCount := 0,
    state := state }

/-- The fields of a four-byte read of line 10000H. -/
def readFields (horizon : List Nat) : ReadFields :=
  { window := .window 0, line := 0x10000, mask := spanMask .asIs 0 4, offset := 0, length := 4,
    order := .relaxed, lane := .asIs, retry := .eight, horizon := horizon, waitCount := 0 }

/-- A tracker entry of Port A with tag 9. -/
def entry (place : Nat) (kind : EntryKind) (state : EntryState) : Entry :=
  { place := place, port := .a, tag := 9, kind := kind, state := state }

/-- A duration that ended before the counter of `live`. -/
def past : Timer := { start := 0, span := 4 }

/-- A duration that has not ended at the counter of `live`. -/
def ahead : Timer := { start := 100, span := 500 }

/-- Port A has one posted write in the queue. -/
def queued (state : RecordState) : State :=
  { live with
    queue := [record 0 none state], nextPlace := 1
    portA := { openPort with writeHeld := 15 } }

/-- Port A has one acked write in the queue. -/
def ackQueued (state : RecordState) : State :=
  { live with
    queue := [record 0 (some 9) state], tracker := [entry 0 .ackedWrite .queued], nextPlace := 1
    portA := { openPort with writeHeld := 15, requestHeld := 7 } }

/-- Port A has one posted write in the queue and a fence that waits for it. -/
def fenced (state : RecordState) : State :=
  { queued state with
    tracker :=
      [entry 1 (.fence
        { scope := .all, purge := false, horizon := [0], failedCount := 0, droppedSeen := false,
          poisonedSeen := false }) .pending]
    nextPlace := 2
    portA := { openPort with writeHeld := 15, requestHeld := 7 } }

/-- Port A has one read in the tracker. -/
def reading (state : EntryState) : State :=
  { live with
    tracker := [entry 0 (.read (readFields [])) state], nextPlace := 1
    portA := { openPort with requestHeld := 7 } }

/-- Slot 0 in a state. -/
def withSlot (s : State) (slot : Slot) : State :=
  s.setSlot 0 slot

/-- A pool line of stream 0 with target 10040H, and reads attached. -/
def poolLine (state : LineState) (attached : List Nat) : Line :=
  { state := state, stale := false, target := 0x10040, owner := some 0, retry := .eight,
    waitCount := 0, horizon := [], order := 0, attached := attached }

/-- Stream 0 of Port A reads ahead in window 0; it owns line 0. -/
def pooled (l : Line) : State :=
  { live with
    readAhead :=
      { streams := live.readAhead.streams.set 0
          (some
            { port := .a, window := 0, depth := 1, nextLine := 0x10080, owned := [0],
              lastUse := 90 })
        lines := live.readAhead.lines.set 0 (some l), nextFetch := 1 } }

/-- A line image whose byte at a position is the position. -/
def image64 : LineData :=
  vecOf 64 byteOf

/-- Line 0 is FETCHING on slot 0 with a read of Port A attached. -/
def fetching : State :=
  withSlot
    { pooled (poolLine .fetching [0]) with
      tracker := [entry 0 (.read { readFields [] with line := 0x10040 }) .attached], nextPlace := 1
      portA := { openPort with requestHeld := 7 } }
    (.busy (.fetch 0) 0x10040 ahead)

/-- A demand read is on slot 0. -/
def demanding : State :=
  withSlot (reading .issued) (.busy (.demand (some 0)) 0x10000 ahead)

/-- The head record is on slot 0. -/
def writing (s : State) : State :=
  withSlot s (.busy (.write 0) 0x10000 ahead)

/-- A memory response (Table 11-5) on slot 0, with the line of `image64`. -/
def answer (kind : Byte) : List Byte :=
  [0x03, 0x00, kind, 0x01] ++ image64.toArray.toList

/-- A flash that holds an image of no windows with the default parameters (Tables 10-2, 11-8). -/
def smallImage : List Byte :=
  [0x4F, 0x53, 0x48, 0x4C, 0x01, 0x00, 0x01, 0xF4, 0x04, 0x28, 0x18, 0x10, 0x08, 0x07, 0x00, 0x01]

/-- The same with its check word. -/
def smallFlash : List Byte :=
  smallImage ++ halfBytes (checkWord smallImage)

/-! ## WellFormed -/

theorem test_knownKindIsNotOfNoKnownKind :
    (Instr.requestOfNoKnownKind .a (onLink [0x01, 0x00])).wellFormed = false := by decide

theorem test_unknownKindIsOfNoKnownKind :
    (Instr.requestOfNoKnownKind .a (onLink [0x04, 0x00])).wellFormed = true ∧
      (Instr.requestOfNoKnownKind .b []).wellFormed = true := by decide

theorem test_namedCodeIsNotUnknown :
    (Instr.unknownCommand 0x01).wellFormed = false ∧
      (Instr.unknownCommand 0x11).wellFormed = false := by decide

theorem test_unnamedCodeIsUnknown :
    (Instr.unknownCommand 0x00).wellFormed = true ∧
      (Instr.unknownCommand 0x12).wellFormed = true := by decide

/-! ## Layouts, parity, check word, lanes -/

theorem test_noWordSpellsACommand : decodeTableWord 32 0x12345678 = none := by decide

theorem test_checkWordOfManual :
    checkWord [0x31, 0x32, 0x33, 0x34, 0x35, 0x36, 0x37, 0x38, 0x39] = 0x29B1 := by
  decide +kernel

theorem test_parityBits : withParity 0x00 = ⟨0x00, true⟩ ∧ withParity 0x01 = ⟨0x01, false⟩ := by
  decide

theorem test_laneMaps :
    laneMap .swap32 0 = 3 ∧ laneMap .swap32 6 = 5 ∧ laneMap .swap64 8 = 15 ∧
      laneMap .asIs 63 = 63 := by decide

theorem test_decodeFrames :
    decodeCommandPart [0x04, 0x07] = some (.enableWindow 7) ∧
      decodeCommandPart [0x08, 0x01, 0x03] = some (.setCatchall 1 3) ∧
      decodeCommandPart [0x11, 0xFF] = some .resume ∧ decodeCommandPart [0x02] = none ∧
      decodeCommandPart [0x12] = some (.unknownCommand 0x12) := by decide

theorem test_readMessageParses :
    parseRead (onLink [0x00, 0x2A, 0x10, 0x12, 0x34, 0x56, 0x78, 0x9A]) =
      .read 0x2A 0x123456789A 0x10 := by decide

theorem test_fenceMessageParses :
    parseFence (onLink [0x06, 0x2A]) = .fence 0x2A .all true ∧
      parseFence (onLink [0x00, 0x2A]) = .fence 0x2A .port false := by decide

theorem test_responseWithoutDataIsFault :
    (parseResponse [0x03, 0x02, 0x00, 0x01]).effective = .fault ∧
      (parseResponse [0x03, 0x02, 0x00, 0x01]).slot = 2 := by decide

theorem test_liveIsSound : live.workSound = true ∧ live.creditsWhole = true := by decide +kernel

/-! ## Resets, load and inputs -/

theorem test_powerOnResetAssert :
    (after .powerOnResetAssert live).pins.powerOnReset = true ∧
      (after .powerOnResetAssert live).startUp.counter = 0 ∧
      (after .powerOnResetAssert live).alertLine = false := by decide +kernel

theorem test_powerOnResetRelease :
    after .powerOnResetRelease (after .powerOnResetAssert State.reset) = State.reset := by
  decide +kernel

theorem test_loadEndTakesImage :
    (after (.loadEnd smallFlash) State.reset).startUp.loadResult = .ok ∧
      (after (.loadEnd smallFlash) State.reset).startUp.partState = .running ∧
      (after (.loadEnd smallFlash) State.reset).startUp.flash.bytesRead = 18 := by decide +kernel

theorem test_loadEndFallsBack :
    (after (.loadEnd []) State.reset).startUp.loadResult = .failed .noFlash ∧
      (after (.loadEnd []) State.reset).log.records =
        [{ time := 0, event := .configFallback .noFlash }] ∧
      (after (.loadEnd []) State.reset).alertLine = true := by decide +kernel

theorem test_warmResetAssert :
    (after .warmResetAssert (queued .queued)).queue = [] ∧
      (after .warmResetAssert (queued .queued)).portA.state = .down ∧
      (after .warmResetAssert (queued .queued)).log.records =
        [{ time := 100, event := .warmResetLoss 1 0 }] := by decide +kernel

theorem test_warmResetRelease :
    (after .warmResetRelease (after .warmResetAssert live)).portA.state = .active ∧
      (after .warmResetRelease (after .warmResetAssert live)).portA.writeOwed = 16 := by
  decide +kernel

theorem test_portResetAssert :
    (after (.portResetAssert .a) (ackQueued .queued)).tracker = [] ∧
      (after (.portResetAssert .a) (ackQueued .queued)).portA.writeOwed = 15 ∧
      (after (.portResetAssert .a) (ackQueued .queued)).queue.length = 1 := by decide +kernel

theorem test_linkReadyLoss :
    (after (.linkReadyLoss .a) live).portA.state = .down ∧
      (after (.linkReadyLoss .a) live).portB.state = .active := by decide +kernel

theorem test_portResetRelease :
    (after (.portResetRelease .a) (after (.portResetAssert .a) live)).portA.state = .active := by
  decide +kernel

theorem test_linkReadyArrival :
    (after (.linkReadyArrival .b) (after (.linkReadyLoss .b) live)).portB.state = .active := by
  decide +kernel

/-! ## Requests -/

theorem test_requestReadMisses :
    (after (.requestRead .a (readMessage 9 4 0x0000)) live).tracker =
        [entry 0 (.read (readFields [])) .ready] ∧
      (after (.requestRead .a (readMessage 9 4 0x0000)) live).readAhead.nextFetch = 2 := by
  decide +kernel

theorem test_requestReadHits :
    (after (.requestRead .a (readMessage 9 4 0x0042))
      (pooled (poolLine (.valid false image64) []))).tracker.map Entry.state =
        [.done .ok [0x02, 0x03, 0x04, 0x05]] := by decide +kernel

theorem test_requestWritePosted :
    ((after (.requestWrite .a (writeMessage 0 9 0x0000 [1, 2, 3, 4])) live).queue.map
        fun r => (r.line, r.length, r.ackTag, r.state)) = [(0x10000, 4, none, .queued)] ∧
      (after (.requestWrite .a (writeMessage 0 9 0x0000 [1, 2, 3, 4])) live).portA.writeHeld =
        15 := by decide +kernel

theorem test_requestWriteFrozen :
    (after (.requestWrite .a (writeMessage 1 9 0x2000 [1])) live).tracker =
        [entry 0 .ackedWrite (.done .frozen [])] ∧
      (after (.requestWrite .a (writeMessage 0 9 0x2000 [1])) live).portA.dropFlag = true := by
  decide +kernel

theorem test_requestFence :
    (after (.requestFence .a (onLink [2, 9])) live).tracker.map Entry.state = [.done .ok []] ∧
      (after (.requestFence .b (onLink [2, 9])) (queued .queued)).tracker.map Entry.state =
        [.pending] := by decide +kernel

theorem test_requestOfNoKnownKind :
    (after (.requestOfNoKnownKind .a (onLink [7])) live).portA.state = .faulted ∧
      (after (.requestOfNoKnownKind .a (onLink [7])) live).log.records =
        [{ time := 100, event := .portProtocol .a .badKind none none }] := by decide +kernel

/-! ## Memory port -/

theorem test_grantWrite :
    (after .grant (queued .queued)).memPort.slots[0] =
        .busy (.write 0) 0x10000 { start := 100, span := 500 } ∧
      ((after .grant (queued .queued)).memPort.lastRequest.take 9) =
        [0x01, 0x00, 0x00, 0x00, 0x00, 0x01, 0x00, 0x00, 0x0F] := by decide +kernel

theorem test_grantDemand :
    (after .grant (reading .ready)).tracker.map Entry.state = [.issued] ∧
      (after .grant (reading .ready)).memPort.lastRequest =
        [0x02, 0, 0, 0, 0, 0x01, 0, 0, 0x0F, 0, 0, 0, 0, 0, 0, 0] := by decide +kernel

theorem test_responseToWrite :
    (after (.response (answer 0)) (writing (queued .issued))).queue = [] ∧
      (after (.response (answer 0)) (writing (queued .issued))).portA.writeOwed = 1 := by
  decide +kernel

theorem test_responseToDemand :
    (after (.response (answer 0)) demanding).tracker.map Entry.state =
        [.done .ok [0x00, 0x01, 0x02, 0x03]] := by decide +kernel

theorem test_slotDeadline :
    (after (.slotDeadline 0)
        (withSlot (queued .issued) (.busy (.write 0) 0x10000 past))).memPort.slots[0] =
          .orphaned .write 0x10000 ∧
      (after (.slotDeadline 0) (withSlot (queued .issued)
        (.busy (.write 0) 0x10000 past))).table.windows[0].state = .frozen := by decide +kernel

theorem test_writeBackoffEnd :
    (after .writeBackoffEnd (queued (.backoff past))).queue.map WriteRecord.state = [.queued] ∧
      (after .writeBackoffEnd (queued (.backoff ahead))).queue.map WriteRecord.state =
        [.backoff ahead] := by decide +kernel

theorem test_readBackoffEnd :
    (after (.readBackoffEnd .a 9) (reading (.backoff past))).tracker.map Entry.state =
      [.ready] := by decide +kernel

theorem test_fetchBackoffEnd :
    (after (.fetchBackoffEnd 0) (pooled (poolLine (.pending (some past)) []))).readAhead.lines[0] =
      some (poolLine (.pending none) []) := by decide +kernel

theorem test_idleExpiry :
    (after (.idleExpiry 0)
        { pooled (poolLine (.valid false image64) []) with
          startUp := { live.startUp with counter := 130 } }).readAhead.lines[0] = none ∧
      (after (.idleExpiry 0) (pooled (poolLine (.valid false image64) []))).readAhead =
        (pooled (poolLine (.valid false image64) [])).readAhead := by decide +kernel

/-! ## Sending -/

/-- Port A has one completed fence to report. -/
def toSend : State :=
  after (.requestFence .a (onLink [0, 9])) live

theorem test_completionBegin :
    (after (.completionBegin .a) toSend).portA.link =
      .sendingCompletion (onLink [0x10, 0x03, 0x00, 0x09, 0x00, 0x00]) := by decide +kernel

theorem test_completionSent :
    (after (.completionSent .a) (after (.completionBegin .a) toSend)).tracker = [] ∧
      (after (.completionSent .a) (after (.completionBegin .a) toSend)).portA.requestOwed = 1 := by
  decide +kernel

/-- Port A is owed three write credits. -/
def owed : State :=
  { live with portA := { openPort with writeHeld := 13, writeOwed := 3 } }

theorem test_creditBegin :
    (after (.creditBegin .a) owed).portA =
      { openPort with link := .sendingCredit (onLink [0x20, 3, 0]), lastSent := .credit } := by
  decide +kernel

theorem test_creditSent :
    (after (.creditSent .a) (after (.creditBegin .a) owed)).portA.link = .idle := by
  decide +kernel

/-! ## Maintenance port -/

/-- What the maintenance port answers to a command in a frame that is arriving. -/
def reply (i : Instr) (s : State) : List Byte :=
  (after i s).maint.response

theorem test_selectAssert : (after .selectAssert live).maint.frame = .receiving := by
  decide +kernel

theorem test_selectRelease : (after .selectRelease framed).maint.frame = .idle := by
  decide +kernel

theorem test_lastBitOfResponseSent :
    (after .lastBitOfResponseSent (after .resume framed)).maint.frame = .spent := by
  decide +kernel

theorem test_unknownCommand :
    (after (.unknownCommand 0x12) framed).maint =
        { frame := .answering, commandPart := [0x12], response := [0x03] } ∧
      (after (.unknownCommand 0x12) framed).maint.outBits =
        [false, false, false, false, false, false, false, true, true] ∧
      (after .lastBitOfResponseSent (after (.unknownCommand 0x12) framed)).maint =
        { frame := .spent, commandPart := [0x12], response := [0x03] } := by decide +kernel

theorem test_getStatus :
    (reply .getStatus framed).length = 66 ∧ (reply .getStatus framed).take 4 = [0, 1, 1, 0] := by
  decide +kernel

theorem test_getWindow :
    reply (.getWindow 3) framed =
      [0, 0, 0, 0, 0x30, 0, 0, 0, 0, 3, 0, 0, 1, 0, 0, 0, 1, 0, 1, 0, 0] ∧
    reply (.getWindow 8) framed = [2] := by decide +kernel

/-- The bytes of `window` in a SET_WINDOW at base 5000H. -/
def newRecord : WindowBytes :=
  { base := 0x5000, sizeCode := 0, targetBase := 0x50000, writeAccess := 0, readOrder := 0,
    depth := 0, laneOrder := 0, retryCode := 1, faultAction := 0 }

theorem test_setWindow :
    (after (.setWindow 5 newRecord) framed).table.windows[5] =
        { window 0x5000 0x50000 with state := .disabled } ∧
      reply (.setWindow 0 newRecord) framed = [1] := by decide +kernel

theorem test_setWindowBadBeforeRefused :
    reply (.setWindow 0 { newRecord with base := 0x5800 }) framed = [2] := by decide +kernel

theorem test_enableWindow :
    (after (.enableWindow 5) framed).table.windows[5].state = .enabled ∧
      reply (.enableWindow 0) framed = [1] := by decide +kernel

theorem test_disableWindow :
    (after (.disableWindow 0)
        { pooled (poolLine (.valid false image64) []) with maint := framed.maint }).readAhead.streams[0]
        = none ∧
      reply (.disableWindow 5) framed = [1] := by decide +kernel

theorem test_thawWindow :
    (after (.thawWindow 2) framed).table.windows[2].state = .enabled ∧
      (after (.thawWindow 2) framed).alertLine = false := by decide +kernel

theorem test_getCatchall : reply .getCatchall framed = [0, 0, 1, 0, 0] := by decide +kernel

theorem test_setCatchall :
    (after (.setCatchall 1 3) framed).table.catchAll =
        { mode := .reject, retry := .unlimited, dropCount := 0 } ∧
      reply (.setCatchall 2 0) framed = [2] := by decide +kernel

theorem test_getParams :
    reply .getParams framed = [0, 0x01, 0xF4, 4, 40, 24, 16, 8, 16, 8, 7] := by decide +kernel

/-- Parameter bytes with the default allocations and a high-water. -/
def paramBytes (highWater writeA : Byte) : ParamBytes :=
  { responseTimeout := 500, backoff := 4, idle := 5, highWater := highWater, writeA := writeA,
    requestA := 8 }

theorem test_setParams :
    reply (.setParams (paramBytes 8 16)) framed = [0] ∧
      reply (.setParams (paramBytes 7 16)) framed = [2] ∧
      reply (.setParams (paramBytes 8 17)) framed = [1] := by decide +kernel

theorem test_setParamsExpiresStreams :
    (after (.setParams (paramBytes 8 16))
      { pooled (poolLine (.valid false image64) []) with
        maint := framed.maint }).readAhead.streams[0] = none := by decide +kernel

theorem test_setAlertMask :
    (after (.setAlertMask 5) framed).alertLine = false ∧ reply (.setAlertMask 8) framed = [2] := by
  decide +kernel

/-- A part with one log record and a frame arriving. -/
def logged : State :=
  framed.logEvent (.slotReclaimed 2)

theorem test_peekLog :
    reply .peekLog logged =
      [0, 1, 0, 0x09, 0x00, 0x08, 0, 0, 0, 100] ++ List.replicate 16 0 ++ [2, 0, 0] := by
  decide +kernel

theorem test_popLog :
    (after .popLog logged).log.records = [] ∧ reply .popLog framed = [1] := by decide +kernel

theorem test_clearOverflow :
    (after .clearOverflow { framed with log := { records := [], overflow := 255 } }).log.overflow =
      0 := by decide +kernel

theorem test_reclaimSlots :
    reply .reclaimSlots (withSlot framed (.orphaned .write 0x10000)) = [0, 1] ∧
      (after .reclaimSlots (withSlot framed (.orphaned .write 0x10000))).memPort.halted = false := by
  decide +kernel

theorem test_quiesce :
    reply .quiesce framed = [0, 2] ∧
      reply .quiesce { queued .queued with maint := framed.maint } = [0, 1] := by decide +kernel

theorem test_resume :
    reply .resume framed = [1] ∧ reply .resume { framed with quiesce := .quiesced } = [0] := by
  decide +kernel

/-! ## Witnesses: each theorem shows states and operands that meet the hypotheses of one obligation, clause by clause -/

/-- A frame is arriving and the load is in progress. -/
def loadingFramed : State :=
  { State.reset with maint := framed.maint }

/-- The power-on reset input is asserted. -/
def held : State :=
  after .powerOnResetAssert State.reset

theorem witness_StepRunsFrontCommandOrTicks :
    ({ live with pending := [.grant, .resume] } : State).pending = Instr.grant :: [.resume] ∧
      live.pending = [] := by decide

theorem witness_PartHeldInPowerOnReset :
    held.pins.powerOnReset = true ∧ Instr.selectAssert ≠ .powerOnResetRelease := by decide +kernel

theorem witness_NoEventWithoutItsConditions :
    held.pins.powerOnReset = true ∧ live.pins.powerOnReset = false ∧
      (after .warmResetAssert live).pins.warmReset = true ∧ live.pins.warmReset = false ∧
      framed.pins.select = true ∧ live.pins.select = false ∧ live.maint.frame ≠ .answering ∧
      (Instr.unknownCommand 0x11).wellFormed = false ∧ live.startUp.partState = .running ∧
      (live.memPort.slots[(3 : SlotId)]).isBusy = false ∧ live.queue = [] ∧ live.tracker = [] ∧
      live.readAhead.lines[(15 : LineId)] = none ∧ live.readAhead.streams[(3 : StreamId)] = none ∧
      (State.reset.port .b).linkReady = false ∧ (live.port .b).linkReady = true ∧
      (live.port .b).resetInput = false ∧
      ((after (.portResetAssert .b) live).port .b).resetInput = true ∧
      (live.port .a).done = [] ∧ (live.port .a).link = .idle := by decide +kernel

theorem witness_PowerOnResetEndsAndStarts :
    held.pins.powerOnReset = true ∧ live.awake ∧ State.reset.pins = live.pins ∧
      ∃ s : State, s.pins = live.pins ∧ (∀ p, (s.port p).resetInput = (live.port p).resetInput ∧
        (s.port p).linkReady = (live.port p).linkReady) ∧ s.pending = live.pending ∧
        s.images = live.images ∧ s.queue ≠ live.queue := by
  refine ⟨by decide +kernel, rfl, rfl, queued .queued, rfl, ?_, rfl, rfl, by decide⟩
  intro p
  cases p <;> exact ⟨rfl, rfl⟩

theorem witness_LoadEndConfiguresPart :
    State.reset.awake ∧ State.reset.startUp.partState = .loading ∧
      (∃ image, checkImage smallFlash = .ok image) ∧ checkImage [] = .error .noFlash := by
  refine ⟨rfl, rfl, ?_, by decide +kernel⟩
  have h : (match checkImage smallFlash with
    | .ok _ => true
    | .error _ => false) = true := by decide +kernel
  cases hc : checkImage smallFlash with
  | ok image => exact ⟨image, rfl⟩
  | error cause =>
    rw [hc] at h
    cases h

/-- An image of one window, whose record is given, with its check word. -/
def oneWindow (record : List Byte) : List Byte :=
  let image := (smallImage.set 5 1) ++ record
  image ++ halfBytes (checkWord image)

theorem witness_LoadChecksInOrder :
    checkImage [0xFF, 0xFF, 0xFF, 0xFF] = .error .noFlash ∧
      checkImage [0x4F, 0x53, 0x48, 0x4D] = .error .badMarker ∧
      checkImage [0x4F, 0x53, 0x48, 0x4C, 0x02] = .error .badVersion ∧
      checkImage [0x4F, 0x53, 0x48, 0x4C, 0x01, 0x09] = .error .badCount ∧
      checkImage (smallImage ++ [0, 0]) = .error .badCheck ∧
      (let image := smallImage.set 8 0
       checkImage (image ++ halfBytes (checkWord image)) = .error (.badField .parameterBlock)) ∧
      (let image := smallImage.set 14 2
       checkImage (image ++ halfBytes (checkWord image)) = .error (.badField .catchAll)) ∧
      checkImage (oneWindow (List.replicate 17 0 ++ [2])) = .error (.badField (.window 0)) := by
  decide +kernel

theorem witness_WarmResetDiscardsWork :
    (queued .queued).awake ∧ (queued .queued).pins.warmReset = false := ⟨rfl, rfl⟩

theorem witness_PortInputsMovePort :
    live.awake ∧ (live.port .a).resetInput = false ∧ (live.port .a).linkReady = true ∧
      ((after (.portResetAssert .a) live).port .a).resetInput = true ∧
      (State.reset.port .a).linkReady = false ∧
      (after .warmResetAssert live).pins.warmReset = true :=
  ⟨rfl, rfl, rfl, by decide +kernel, rfl, by decide +kernel⟩

/-- Port A has a read attached to a PENDING line of its stream and one on slot 0. -/
def attachedRead : State :=
  withSlot
    { pooled (poolLine (.pending none) [0]) with
      tracker :=
        [entry 0 (.read { readFields [] with line := 0x10040 }) .attached,
          { entry 1 (.read (readFields [])) .issued with tag := 10 }]
      nextPlace := 2
      portA := { openPort with requestHeld := 6 } }
    (.busy (.demand (some 1)) 0x10000 ahead)

theorem test_portDiscardCancelsAndOrphans :
    attachedRead.workSound = true ∧
      (after (.portResetAssert .a) attachedRead).readAhead.lines[0] = none ∧
      (after (.portResetAssert .a) attachedRead).memPort.slots[0] =
        .busy (.demand none) 0x10000 ahead ∧
      (after (.portResetAssert .a) fetching).readAhead.lines[0] =
        some { poolLine .fetching [] with owner := none } ∧
      (after (.portResetAssert .a) fetching).memPort.slots[0] =
        .busy (.fetch 0) 0x10040 ahead := by decide +kernel

theorem witness_PortDiscardSparesOtherPort :
    (pooled (poolLine (.valid false image64) [])).poolSound = true ∧
      (∃ st, (pooled (poolLine (.valid false image64) [])).readAhead.streams[(0 : StreamId)] =
        some st ∧ st.port ≠ .b) ∧
      (poolLine (.valid false image64) []).isValid = true ∧
      (poolLine (.valid false image64) []).owner = some 0 ∧ attachedRead.poolSound = true ∧
      attachedRead.readAhead.lines[(0 : LineId)] = some (poolLine (.pending none) [0]) ∧
      (∃ st, attachedRead.readAhead.streams[(0 : StreamId)] = some st ∧ st.port = .a) :=
  ⟨by decide +kernel, ⟨_, rfl, by decide⟩, rfl, rfl, by decide +kernel, rfl, _, rfl, rfl⟩

theorem witness_FormCheckInOrder :
    Request.formError (.read 9 0x0000 0) = some .badLength ∧
      Request.formError (.read 9 0x0000 65) = some .badLength ∧
      Request.formError (.read 9 0x0001 64) = some .lineCrossing ∧
      Request.formError (.read 9 0x0000 64) = none ∧
      Request.formError (.read 9 0x003F 1) = none ∧
      Request.formError (.write true 9 0x0000 2 (onLink [1])) = some .badLength ∧
      Request.formError (.write true 9 0x003F 2 (onLink [1, 2])) = some .lineCrossing ∧
      Request.formError (.write true 9 0x003E 2 (onLink [1, 2])) = none := by decide

theorem witness_RequestsIgnoredOrProtocolErrors :
    live.awake ∧ (State.reset.port .a).state ≠ .active ∧ (live.port .a).state = .active ∧
      live.refusal .a (parseRead (readMessage 9 0 0x0000)) = some .badLength ∧
      ({ live with portA := { openPort with requestHeld := 0 } } : State).refusal .a
        (parseRead (readMessage 9 4 0x0000)) = some .creditOverrun ∧
      (reading .ready).refusal .a (parseRead (readMessage 9 4 0x0000)) = some .duplicateTag ∧
      (Instr.requestOfNoKnownKind .a []).wellFormed = true :=
  ⟨rfl, by decide, rfl, by decide +kernel, by decide +kernel, by decide +kernel, rfl⟩

/-- `live` with a catch-all in REJECT mode. -/
def rejecting : State :=
  { live with table := { live.table with catchAll := { mode := .reject, retry := .zero, dropCount := 0 } } }

theorem witness_ReadBecomesEntry :
    rejecting.readsWeighed = true ∧ live.readsWeighed = true ∧
      parseRead (readMessage 9 4 0x9000) = .read 9 0x9000 4 ∧
      rejecting.admits (.requestRead .a (readMessage 9 4 0x9000)) .a (.read 9 0x9000 4) ∧
      rejecting.table.matching 0x9000 = .catchAll ∧ rejecting.table.catchAll.mode = .reject ∧
      live.admits (.requestRead .a (readMessage 9 4 0x9000)) .a (.read 9 0x9000 4) ∧
      live.table.matching 0x9000 = .catchAll ∧ live.table.catchAll.mode = .pass ∧
      live.admits (.requestRead .a (readMessage 9 4 0x1000)) .a (.read 9 0x1000 4) ∧
      live.table.matching 0x1000 = .window 1 ∧
      (live.table.windows[(1 : WindowId)]).fields.depth = 0 := by
  unfold State.admits State.awake
  decide +kernel

theorem witness_ReadMeetsPool :
    (let s := pooled (poolLine (.valid false image64) [])
     s.readsWeighed = true ∧ s.admits (.requestRead .a (readMessage 9 4 0x0040)) .a (.read 9 0x0040 4) ∧
        s.readAhead.lookup .a 0 0x10040 = .hit 0) ∧
    (let s := pooled (poolLine .fetching [])
     s.readsWeighed = true ∧ s.admits (.requestRead .a (readMessage 9 4 0x0040)) .a (.read 9 0x0040 4) ∧
        s.readAhead.lookup .a 0 0x10040 = .attach 0) ∧
    (live.readsWeighed = true ∧
      live.admits (.requestRead .a (readMessage 9 4 0x0040)) .a (.read 9 0x0040 4) ∧
        live.readAhead.lookup .a 0 0x10040 = .miss ∧ live.table.matching 0x0040 = .window 0 ∧
        0 < (live.table.windows[(0 : WindowId)]).fields.depth) := by
  unfold State.admits State.awake
  decide +kernel

theorem witness_LookupPrefersValidThenOldest :
    (pooled (poolLine (.valid true image64) [])).readAhead.lookup .a 0 0x10040 = .hit 0 ∧
      (pooled (poolLine (.pending none) [])).readAhead.lookup .a 0 0x10040 = .attach 0 ∧
      (pooled (poolLine (.pending none) [])).readAhead.lookup .b 0 0x10040 = .miss := by
  decide +kernel

theorem witness_HitAdvancesStream :
    (pooled (poolLine .fetching [])).poolSound = true ∧
      (pooled (poolLine .fetching [])).readAhead.lines[(0 : LineId)] = some (poolLine .fetching []) ∧
      (poolLine .fetching []).owner = some 0 ∧
      ∃ st, (pooled (poolLine .fetching [])).readAhead.streams[(0 : StreamId)] = some st :=
  ⟨by decide +kernel, by decide +kernel, rfl, _, rfl⟩

/-- Four ACTIVE streams of Port B in window 3, each used a microsecond before the one below it. -/
def crowded : State :=
  { live with
    readAhead := { live.readAhead with
      streams := vecOf 4 fun i => some
        { port := .b, window := 3, depth := 1, nextLine := 0x30040, owned := [],
          lastUse := BitVec.ofNat 32 (90 - i) } } }

theorem witness_MissReAimsOrAllocates :
    (pooled (poolLine (.pending none) [])).readAhead.continues .a 0 0x10080 0 = true ∧
      crowded.readAhead.reAimed crowded.fetchEnv .b 3 0x30040 = some 0 ∧
      live.readAhead.reAimed live.fetchEnv .a 0 0x10040 = none ∧
      live.readAhead.streams[(0 : StreamId)] = none ∧
      crowded.readAhead.reAimed crowded.fetchEnv .a 0 0x10040 = none ∧
      (∀ j : StreamId, crowded.readAhead.streams[j] ≠ none) ∧
      crowded.readAhead.oldest 100 = some 3 := by decide +kernel

theorem test_missAllocatesOldest :
    (crowded.readAhead.miss crowded.fetchEnv .a 0 0x10040).streams[(3 : StreamId)] = some
      { port := .a, window := 0, depth := 2, nextLine := 0x10100, owned := [0, 1],
        lastUse := 100 } := by decide +kernel

/-- A stream that is short by two lines, its next line given, and no line in use. -/
def thirsty (nextLine : Nat) : ReadAhead :=
  { live.readAhead with
    streams := live.readAhead.streams.set 0
      (some
        { port := .a, window := 0, depth := 2, nextLine := nextLine, owned := [], lastUse := 90 }) }

theorem witness_TopUpFeedsLatestReader :
    (∀ i : LineId, ({ thirsty 0x10FC0 with
        lines := vecOf 16 fun _ => some (poolLine .fetching []) } : ReadAhead).lines[i] ≠ none) ∧
      (∀ k : StreamId, (thirsty 0x11000).isShort live.fetchEnv.windows k = false) ∧
      (thirsty 0x10FC0).nextShort live.fetchEnv = some 0 ∧
      (thirsty 0x10000).nextShort live.fetchEnv = some 0 ∧
      (thirsty 0x10000).lines[(0 : LineId)] = none := by decide +kernel

theorem test_topUpStopsAtTargetRange :
    (((thirsty 0x10FC0).topUp live.fetchEnv).streams[(0 : StreamId)]).map
        (fun st => (st.owned, st.nextLine)) = some ([0], 0x11000) ∧
      (((thirsty 0x10F80).topUp live.fetchEnv).streams[(0 : StreamId)]).map
        (fun st => (st.owned, st.nextLine)) = some ([0, 1], 0x11000) := by decide +kernel

/-- Two lines of one stream, the second with a read attached. -/
def twoLines : State :=
  { pooled (poolLine (.valid false image64) []) with
    readAhead :=
      { streams := live.readAhead.streams.set 0
          (some
            { port := .a, window := 0, depth := 2, nextLine := 0x100C0, owned := [0, 1],
              lastUse := 90 })
        lines := (live.readAhead.lines.set 0 (some (poolLine (.valid false image64) []))).set 1
          (some { poolLine (.pending none) [7] with target := 0x10080 }), nextFetch := 2 } }

theorem witness_WriteInvalidatesPoolLines :
    twoLines.poolSound = true ∧
      twoLines.readAhead.lines[(0 : LineId)] = some (poolLine (.valid false image64) []) ∧
      (poolLine (.valid false image64) []).target = 0x10040 ∧
      (poolLine (.valid false image64) []).owner = some 0 ∧
      twoLines.readAhead.lines[(1 : LineId)] =
        some { poolLine (.pending none) [7] with target := 0x10080 } := by decide +kernel

theorem test_writeInvalidates :
    (twoLines.readAhead.invalidate twoLines.fetchEnv 0x10080).lines[(0 : LineId)] = none ∧
      (twoLines.readAhead.invalidate twoLines.fetchEnv 0x10080).lines[(1 : LineId)] =
        some { poolLine (.pending none) [7] with
          target := 0x10080, stale := true, owner := none } ∧
      (twoLines.readAhead.invalidate twoLines.fetchEnv 0x10040).lines[(1 : LineId)] =
        some { poolLine (.pending none) [7] with target := 0x10080, owner := none } := by
  decide +kernel

theorem witness_WriteJoinsQueue :
    parseWrite (writeMessage 1 9 0x0000 [1]) = .write true 9 0x0000 1 (onLink [1]) ∧
      live.admits (.requestWrite .a (writeMessage 1 9 0x0000 [1])) .a
        (.write true 9 0x0000 1 (onLink [1])) ∧
      live.admits (.requestWrite .a (writeMessage 0 9 0x0000 [1])) .a
        (.write false 9 0x0000 1 (onLink [1])) ∧
      live.table.writeRefusal (live.table.matching 0x0000) = none := by
  unfold State.admits State.awake
  decide +kernel

theorem witness_WriteTurnedAway :
    live.orderSound = true ∧
      live.admits (.requestWrite .a (writeMessage 1 9 0x2000 [1])) .a
        (.write true 9 0x2000 1 (onLink [1])) ∧
      live.admits (.requestWrite .a (writeMessage 0 9 0x3000 [1])) .a
        (.write false 9 0x3000 1 (onLink [1])) ∧
      live.table.writeRefusal (live.table.matching 0x2000) = some .frozen ∧
      live.table.writeRefusal (live.table.matching 0x3000) = some .readOnly ∧
      rejecting.table.writeRefusal (rejecting.table.matching 0x9000) = some .unmapped ∧
      (live.table.windows[(0 : WindowId)]).state = .enabled ∧
      (live.table.windows[(0 : WindowId)]).fields.access = .writable := by
  unfold State.admits State.awake
  decide +kernel

theorem witness_FenceTakesHorizonAndDropFlag :
    (queued .queued).orderSound = true ∧ parseFence (onLink [2, 9]) = .fence 9 .all false ∧
      (queued .queued).admits (.requestFence .b (onLink [2, 9])) .b (.fence 9 .all false) ∧
      (queued .queued).queue ≠ [] ∧
      live.admits (.requestFence .b (onLink [2, 9])) .b (.fence 9 .all false) ∧
      live.queue = [] := by
  unfold State.admits State.awake
  decide +kernel

theorem witness_WindowMatchesAndTranslates :
    (window 0x1000 0x10000).fields.valid = true ∧
      (window 0x1000 0x10000).fields.covers 0x1000 = true ∧
      (window 0x1000 0x10000).fields.covers 0x1FFF = true ∧
      (window 0x1000 0x10000).fields.covers 0x2000 = false := by decide +kernel

theorem witness_LaneOrderRoundTrip : 63 < 64 ∧ 60 + 4 ≤ 64 ∧ 60 + [1, 2, 3, 4].length ≤ 64 := by
  decide

theorem witness_CandidatesPresented :
    (queued .queued).headCandidate = some (record 0 none .queued) ∧
      (pooled (poolLine (.pending none) [])).readAhead.candidate [] [] = some 0 ∧
      live.readAhead.candidate [] [] = none ∧
      lineEligible [] [0x10040] (poolLine (.pending none) []) = false ∧
      readEligible [record 0 none .queued] [] .a (readFields [0]) = false ∧
      readEligible [record 0 none .queued] [] .a (readFields []) = true ∧
      readEligible [{ record 0 none .queued with line := 0x10040 }] [] .a
        { readFields [0] with order := .strict } = false ∧
      readEligible [{ record 0 none .queued with line := 0x10040 }] [] .b
        { readFields [0] with order := .strict } = true := by decide +kernel

/-- Both a write and a demand read wait, with a passed-over count. -/
def contended (passedOver : Nat) : State :=
  { reading .ready with
    queue := [{ record 1 none .queued with line := 0x10040 }], nextPlace := 2
    memPort := { live.memPort with passedOver := passedOver } }

/-- A demand read of `reading` and of `contended`. -/
def demandEntry : Entry :=
  entry 0 (.read (readFields [])) .ready

theorem witness_ArbiterChoosesInOrder :
    (contended 4).headCandidate.isSome = true ∧ (contended 4).memPort.passedOver = 4 ∧
      (contended 3).queue.length < (contended 3).startUp.params.highWater ∧
      (contended 3).memPort.passedOver < 4 ∧
      (contended 3).demandCandidate = some (demandEntry, readFields []) ∧
      (queued .queued).headCandidate.isSome = true ∧ (queued .queued).demandCandidate = none ∧
      (reading .ready).headCandidate = none ∧
      (reading .ready).demandCandidate = some (demandEntry, readFields []) ∧
      live.demandCandidate = none ∧ 2 ≤ live.memPort.count Slot.isFree ∧
      ({ live with memPort := { live.memPort with
        slots := vecOf 4 fun i => if i = 3 then .free else .orphaned .fetch 0 } } : State).memPort.count
          Slot.isFree < 2 ∧
      (let s : State := { contended 0 with
          startUp := { live.startUp with params := { Params.default with highWater := 1 } } }
       s.headCandidate.isSome = true ∧ s.startUp.params.highWater ≤ s.queue.length) := by
  decide +kernel

theorem witness_GrantFillsLowestFreeSlot :
    live.awake ∧ live.chooseGrant = none ∧ live.memPort.slots[(0 : SlotId)] = .free ∧
      (queued .queued).chooseGrant = some (.write (record 0 none .queued)) ∧
      (reading .ready).chooseGrant = some (.demand demandEntry (readFields [])) ∧
      (pooled (poolLine (.pending none) [])).chooseGrant = some (.fetch 0) ∧
      (writing (queued .issued)).memPort.slots[(0 : SlotId)] ≠ .free ∧
      (writing (queued .issued)).memPort.slots[(1 : SlotId)] = .free := by
  unfold State.awake
  decide +kernel

theorem witness_UnownedResponses :
    live.awake ∧ live.memPort.slots[(parseResponse (answer 0)).slot] = .free ∧
      (withSlot live (.busy (.demand none) 0x10000 ahead)).memPort.slots[
        (parseResponse (answer 0)).slot] = .busy (.demand none) 0x10000 ahead := by
  unfold State.awake
  decide +kernel

theorem witness_WriteTakesResponse :
    (writing (queued .issued)).awake ∧
      (writing (queued .issued)).memPort.slots[(parseResponse (answer 0)).slot] =
        .busy (.write (record 0 none .issued).place) 0x10000 ahead ∧
      (writing (queued .issued)).queue = record 0 none .issued :: [] ∧
      (parseResponse (answer 0)).kind = .ok ∧ (parseResponse (answer 1)).kind = .okPoison ∧
      (parseResponse (answer 2)).kind = .wait ∧ (parseResponse (answer 3)).kind = .fault ∧
      (record 0 none .issued).retry.bound = some 8 ∧ (record 0 none .issued).waitCount < 8 ∧
      ({ record 0 none .issued with waitCount := 8 } : WriteRecord).waitCount = 8 := by
  unfold State.awake
  decide +kernel

/-- A posted write that freezes window 0 is on slot 0; behind it are an acked write of the window and a fence
that waits for both. -/
def freezing : State :=
  writing
    { live with
      queue := [record 0 none .issued, record 1 (some 9) .queued]
      tracker := [entry 1 .ackedWrite .queued, fenceEntry]
      nextPlace := 3
      portA := { openPort with writeHeld := 14, requestHeld := 6 } }
where
  fenceEntry : Entry :=
    { entry 2 (.fence
        { scope := .all, purge := false, horizon := [0, 1], failedCount := 0, droppedSeen := false,
          poisonedSeen := false }) .pending with tag := 10 }

/-- The departures of `freezing` when the posted write fails. -/
def freezeReports : List Report :=
  [(record 0 none .issued, .failed .memFault), (record 1 (some 9) .queued, .withdrawn)]

theorem witness_DepartureReportsToTracker :
    freezing.workSound = true ∧ (freezeReports.map Prod.fst).Sublist freezing.queue ∧
      (record 1 (some 9) .queued).link = some 1 ∧
      freezing.fenceEntry ∈ freezing.tracker ∧
      freezing.fenceEntry.emptiedBy freezeReports = true ∧
      freezing.fenceEntry.emptiedBy (freezeReports.take 1) = false ∧
      (demanding.workSound = true ∧ demanding.tracker.map Entry.kind = [.read (readFields [])]) := by
  decide +kernel

/-- A posted write on slot 0, a purge fence that waits for it, a VALID line and a stream that owns it. -/
def purging : State :=
  writing
    { pooled (poolLine (.valid false image64) []) with
      queue := [record 0 none .issued]
      tracker := [fenceEntry]
      nextPlace := 2
      portA := { openPort with writeHeld := 15, requestHeld := 7 } }
where
  fenceEntry : Entry :=
    entry 1 (.fence
      { scope := .all, purge := true, horizon := [0], failedCount := 0, droppedSeen := false,
        poisonedSeen := false }) .pending

theorem witness_DepartureReportsToTracker_purge :
    purging.workSound = true ∧
      [record 0 none .issued].Sublist purging.queue ∧ purging.fenceEntry ∈ purging.tracker ∧
      purging.fenceEntry.emptiedBy [(record 0 none .issued, .succeeded)] = true := by
  decide +kernel

theorem test_pendingFencePurgesAtDeparture :
    (after (.response (answer 0)) purging).readAhead.streams[0] = none ∧
      (after (.response (answer 0)) purging).readAhead.lines[0] = none ∧
      (after (.response (answer 0)) purging).tracker.map Entry.state = [.done .ok []] := by
  decide +kernel

theorem test_freezeReportsInOrder :
    (after (.response (answer 3)) freezing).tracker.map Entry.state =
        [.done .frozen [], .done .faulted []] ∧
      (after (.response (answer 3)) freezing).portA.done = [1, 2] ∧
      (after (.response (answer 3)) freezing).portA.writeOwed = 2 ∧
      (after (.response (answer 3)) freezing).queue = [] := by decide +kernel

/-- The entry of `demanding`. -/
def demandingEntry : Entry :=
  entry 0 (.read (readFields [])) .issued

theorem witness_DemandReadTakesResponse :
    demanding.awake ∧ demanding.orderSound = true ∧ demanding.workSound = true ∧
      demanding.memPort.slots[(parseResponse (answer 0)).slot] =
        .busy (.demand (some demandingEntry.place)) 0x10000 ahead ∧
      demandingEntry ∈ demanding.tracker ∧
      (parseResponse (answer 0)).data = some image64 ∧
      (parseResponse [0x03, 0, 0, 0]).data = none ∧
      (readFields []).retry.bound = some 8 := by
  unfold State.awake
  decide +kernel

theorem witness_FetchTakesResponse :
    fetching.awake ∧ fetching.workSound = true ∧
      fetching.memPort.slots[(parseResponse (answer 0)).slot] = .busy (.fetch 0) 0x10040 ahead ∧
      fetching.readAhead.lines[(0 : LineId)] = some (poolLine .fetching [0]) ∧
      (poolLine .fetching [0]).attached ≠ [] ∧ (poolLine .fetching [0]).retry.bound = some 8 ∧
      (let l : Line := { poolLine .fetching [] with owner := none }
       l.attached = [] ∧ l.owner = none) ∧
      (let l : Line := { poolLine .fetching [0] with waitCount := 8 }
       l.retry.bound = some 8 ∧ 8 ≤ l.waitCount) := by
  unfold State.awake
  decide +kernel

theorem witness_DeadlineOrphansSlot :
    (writing (queued .issued)).awake ∧
      (writing (queued .issued)).memPort.slots[(0 : SlotId)] = .busy (.write 0) 0x10000 ahead ∧
      ((writing (queued .issued)).startUp.counter - ahead.start).toNat < ahead.span.toNat ∧
      past.span.toNat ≤ ((writing (queued .issued)).startUp.counter - past.start).toNat ∧
      demanding.orderSound = true ∧ demandingEntry ∈ demanding.tracker ∧
      fetching.memPort.slots[(0 : SlotId)] = .busy (.fetch 0) 0x10040 ahead ∧
      (withSlot live (.orphaned .demand 0x10000)).memPort.slots[
        (parseResponse [0x03, 0, 0, 0]).slot] = .orphaned .demand 0x10000 ∧
      (withSlot fetching (.busy (.fetch 0) 0x10040 past)).workSound = true ∧
      fetching.readAhead.lines[(0 : LineId)] = some (poolLine .fetching [0]) := by
  unfold State.awake
  decide +kernel

theorem test_fetchTimesOut :
    (let u := after (.slotDeadline 0) (withSlot fetching (.busy (.fetch 0) 0x10040 past))
     u.memPort.slots[0] = .orphaned .fetch 0x10040 ∧
       u.tracker.map Entry.state = [.done .timeout []] ∧ u.portA.done = [0] ∧
       u.readAhead.lines[0] = none ∧ u.readAhead.streams[0] = none) := by decide +kernel

theorem test_lateResponseLogsKindReceived :
    (after (.response [0x03, 0, 0, 0]) (withSlot live (.orphaned .demand 0x10000))).log.records =
      [{ time := 100, event := .lateResponse 0 .demand 0x10000 .ok }] := by decide +kernel

theorem witness_TimedEndsActAtTheirTime :
    (queued (.backoff past)).awake ∧
      (queued (.backoff past)).queue = record 0 none (.backoff past) :: [] ∧
      past.span.toNat ≤ (live.startUp.counter - past.start).toNat ∧
      ¬ ahead.span.toNat ≤ (live.startUp.counter - ahead.start).toNat ∧
      (reading (.backoff past)).tagsUnique = true ∧ (reading (.backoff past)).readsWeighed = true ∧
      (pooled (poolLine (.pending (some past)) [])).readAhead.lines[(0 : LineId)] =
        some (poolLine (.pending (some past)) []) ∧
      (pooled (poolLine .fetching [])).readAhead.age 100 0 <
        (pooled (poolLine .fetching [])).startUp.params.idle ∧
      (pooled (poolLine .fetching [])).startUp.params.idle ≤
        (pooled (poolLine .fetching [])).readAhead.age 130 0 := by
  unfold State.awake
  decide +kernel

theorem witness_RetirementReleasesLines :
    (pooled (poolLine (.pending none) [])).poolSound = true ∧
      ∃ st, (pooled (poolLine (.pending none) [])).readAhead.streams[(0 : StreamId)] = some st ∧
        (0 : LineId) ∈ st.owned :=
  ⟨by decide +kernel, _, rfl, by decide⟩

theorem witness_CompletionsSentOldestFirst :
    toSend.awake ∧ toSend.workSound = true ∧ (toSend.port .a).done = 0 :: [] ∧
      (toSend.port .a).state = .active ∧ (toSend.port .a).link = .idle ∧
      (toSend.port .a).writeOwed = 0 ∧ (toSend.port .a).requestOwed = 0 ∧
      ((after (.completionBegin .a) toSend).port .a).link =
        .sendingCompletion (onLink [0x10, 0x03, 0x00, 0x09, 0x00, 0x00]) ∧
      (after (.completionBegin .a) toSend).workSound = true ∧
      (let s : State := { toSend with portA := { toSend.portA with writeOwed := 1 } }
       s.quiesce = .running ∧ 0 < (s.port .a).writeOwed ∧ (s.port .a).lastSent ≠ .credit) := by
  unfold State.awake
  decide +kernel

theorem witness_CreditMessageTakesAllOwed :
    owed.awake ∧ (owed.port .a).state = .active ∧ (owed.port .a).link = .idle ∧
      owed.quiesce = .running ∧ 0 < (owed.port .a).writeOwed ∧ (owed.port .a).done = [] ∧
      (live.port .a).writeOwed = 0 ∧ (live.port .a).requestOwed = 0 ∧
      ((after (.creditBegin .a) owed).port .a).link =
        .sendingCredit (onLink [0x20, 3, 0]) := by
  unfold State.awake
  decide +kernel

theorem witness_MessagesFollowLayouts :
    (entry 0 .ackedWrite (.done .frozen [])).state = .done .frozen [] := rfl

theorem witness_MessagesReadByPosition :
    (withParity 0x01).data = 1 ∧ (withParity 0x02).data = 2 ∧ (withParity 0x03).data = 3 ∧
      (withParity 0x04).data ≠ 1 ∧ ((answer 0)[3]?.getD 0).getLsbD 0 = true ∧
      4 + 64 ≤ (answer 0).length ∧ ([0x03, 0, 0, 1] : List Byte).length < 4 + 64 ∧
      (parseResponse [0x03, 0, 0, 1]).data = none ∧ (parseResponse (answer 0)).data ≠ none := by
  decide +kernel

theorem test_responseReadsLowBits :
    ([0, 1, 2, 3, 0xFD] : List Byte).map (fun b => (parseResponse [0x03, b, b, 0]).kind) =
        [.ok, .okPoison, .wait, .fault, .okPoison] ∧
      (parseResponse [0x03, 0xFE]).slot = 2 := by decide +kernel

theorem witness_FramesFollowSelect :
    live.awake ∧ live.pins.select = false ∧ framed.pins.select = true ∧
      (after .resume framed).maint.frame = .answering ∧ framed.maint.frame = .receiving ∧
      (Instr.unknownCommand 0x12).wellFormed = true ∧ live.maint.frame ≠ .receiving ∧
      Instr.getStatus.commandPart ≠ [] := by
  unfold State.awake
  decide +kernel

theorem framed_serving : framed.serving :=
  ⟨⟨rfl, rfl⟩, rfl⟩

theorem witness_CommandsWeighedInOrder :
    (Instr.unknownCommand 0x12).wellFormed = true ∧ loadingFramed.receiving ∧
      loadingFramed.startUp.partState = .loading ∧
      (Instr.setParams (paramBytes 0 0)).commandPart ≠ [] ∧ framed.serving ∧
      windowCommand 8 (.thawWindow 8) ∧ windowFieldsOf { newRecord with depth := 5 } = none ∧
      (paramBytes 7 16).highWater.toNat < 8 ∧ 31 < (paramBytes 8 32).writeA.toNat :=
  ⟨rfl, ⟨rfl, rfl⟩, rfl, by decide, framed_serving, rfl, by decide +kernel, by decide, by decide⟩

theorem witness_ConfigurationBytesReadWhole :
    (windowFieldsOf newRecord).isSome = true ∧ (paramsOf (paramBytes 8 16)).isSome = true ∧
      (maskOf 5).isSome = true ∧ (modeOf 1).isSome = true ∧ (retryOf 3).isSome = true ∧
      (imageWindow (List.replicate 17 0 ++ [1]) 0).map Window.state = some .enabled ∧
      (imageWindow (List.replicate 17 0 ++ [0]) 0).map Window.state = some .disabled ∧
      imageWindow (List.replicate 17 0 ++ [2]) 0 = none := by decide +kernel

theorem witness_ReadCommandsChangeNothing :
    loadingFramed.receiving ∧ framed.serving ∧ (7 : Byte).toNat = (7 : WindowId).val :=
  ⟨⟨rfl, rfl⟩, framed_serving, rfl⟩

theorem witness_MaintenanceDataByPosition (part : ImagePart) :
    LoadCause.noFlash ≠ .badField part ∧ LoadCause.badCheck ≠ .badField part :=
  ⟨by simp, by simp⟩

theorem witness_WindowCommandsMoveStates :
    (5 : Byte).toNat = (5 : WindowId).val ∧
      (framed.table.windows[(5 : WindowId)]).state = .disabled ∧
      (framed.table.windows[(0 : WindowId)]).state = .enabled ∧
      (framed.table.windows[(2 : WindowId)]).state = .frozen ∧
      (windowFieldsOf newRecord).isSome = true ∧ (1 : Byte) = CatchMode.reject.code ∧
      (3 : Byte) = RetryLimit.unlimited.code ∧ framed.serving := by
  unfold State.serving State.receiving State.awake
  decide +kernel

/-- `framed` with both ports DOWN. -/
def framedDown : State :=
  { framed with portA := Port.powerOn false false, portB := Port.powerOn false false }

theorem witness_ParametersReplaced :
    framed.serving ∧ framedDown.serving ∧
      (paramsOf (paramBytes 8 17)).map Params.writeA = some 17 ∧
      (paramsOf (paramBytes 8 16)).map Params.writeA = some 16 ∧
      framed.portA.state = .active ∧
      ¬ (framedDown.portA.state = .active ∨ framedDown.portB.state = .active ∨
        17 < queuedRecords framedDown.queue .a ∨ 32 - 17 < queuedRecords framedDown.queue .b) ∧
      (7 : Byte).toNat < 8 :=
  ⟨framed_serving, ⟨⟨rfl, rfl⟩, rfl⟩, by decide +kernel, by decide +kernel, rfl,
    by decide +kernel, by decide⟩

theorem witness_LogPoppedClearedAppended :
    logged.serving ∧ logged.log.records = { time := 100, event := .slotReclaimed 2 } :: [] ∧
      framed.log.records = [] ∧ framed.log.records.length < 8 ∧
      8 ≤ (List.replicate 8 ({ time := 0, event := .slotReclaimed 1 } : LogRecord)).length :=
  ⟨⟨⟨rfl, rfl⟩, rfl⟩, by decide +kernel, rfl, by decide, by decide⟩

theorem witness_ReclaimFreesOrphanedSlots :
    (withSlot framed (.orphaned .write 0x10000)).serving := ⟨⟨rfl, rfl⟩, rfl⟩

theorem witness_QuiesceAndResume :
    framed.serving ∧ framed.quiesce = .running ∧ framed.holdsNoWork = true ∧
      ({ queued .queued with maint := framed.maint } : State).serving ∧
      ({ queued .queued with maint := framed.maint } : State).queue ≠ [] ∧
      ({ framed with quiesce := .quiesced } : State).serving :=
  ⟨framed_serving, rfl, by decide +kernel, ⟨⟨rfl, rfl⟩, rfl⟩, by decide, ⟨⟨rfl, rfl⟩, rfl⟩⟩

theorem witness_DecodeOfCommandPart :
    (Instr.unknownCommand 0x12).wellFormed = true ∧
      (Instr.unknownCommand 0x12).commandPart ≠ [] ∧
      (Instr.setWindow 5 newRecord).wellFormed = true ∧
      (Instr.setWindow 5 newRecord).commandPart ≠ [] := by decide

/-- A state in which every law holds and a command waits: every step statement's hypotheses are met by it. -/
def busy : State :=
  { writing (ackQueued .issued) with pending := [.response (answer 0)] }

/-- The premises of the step statements. -/
def premises : List (State → Bool) :=
  [State.logBounded, State.alertFollows, State.paramsInRange, State.tableSound,
    State.frozenDrained, State.onlyHeadMoves, State.quiesceFollows, State.passedOverBounded,
    State.oneWriteSlot, State.creditsWhole, State.orderSound, State.tagsUnique,
    State.readsWeighed, State.poolSound, State.workSound, State.poolBehindQueue]

theorem witness_StepKeeps :
    (premises.all fun law => law busy) = true ∧ step busy = .next (after (.response (answer 0))
      { busy with pending := [] }) := ⟨by decide +kernel, rfl⟩

theorem witness_GrantWaitsForEarlierWrites :
    (reading .ready).readsWeighed = true ∧
      (reading .ready).chooseGrant = some (.demand demandEntry (readFields [])) ∧
      (pooled (poolLine (.pending none) [])).readsWeighed = true ∧
      (pooled (poolLine (.pending none) [])).chooseGrant = some (.fetch 0) := by decide +kernel

end Sys2Proof.Tests
end

section
/-! SUPPORT. What one step can do to the parameters, the window table and the write queue, said once, and
the laws of windows and queue that every step keeps (O54). -/

namespace Sys2Proof.Machine

/-! ## Records of the window table -/

/-- A window table whose one window has a new state (R12 to R14, R38). -/
theorem WindowTable.setState_windows (t : WindowTable) (n m : WindowId) (state : WindowState) :
    (t.setState n state).windows[m] =
      if m = n then { t.windows[m] with state := state } else t.windows[m] := by
  rw [WindowTable.setState, set_getElem_fin]
  split
  · rename_i h
    rw [h]
  · rfl

/-- A drop is counted against the matched window and no other (R11). -/
theorem WindowTable.drop_window_windows (t : WindowTable) (n m : WindowId) :
    (t.drop (.window n)).windows[m] =
      if m = n then { t.windows[m] with dropCount := countDrop t.windows[m].dropCount }
      else t.windows[m] := by
  rw [WindowTable.drop, set_getElem_fin]
  split
  · rename_i h
    rw [h]
  · rfl

theorem countDrop_le (n : Nat) : countDrop n ≤ 65535 :=
  Nat.min_le_right _ _

/-- A drop leaves every window's state and fields. -/
theorem WindowTable.drop_state (t : WindowTable) (ref : WindowRef) (m : WindowId) :
    (t.drop ref).windows[m].state = t.windows[m].state := by
  cases ref with
  | catchAll => rfl
  | window n =>
    rw [WindowTable.drop_window_windows]
    split <;> rfl

/-- What the law of one window record says (R3, R11, R39). -/
theorem Window.sound_iff (w : Window) :
    w.sound = true ↔ w.fields.valid = true ∧ w.dropCount ≤ 65535 ∧
      (w.state = .frozen → w.fields.fault = .freeze) := by
  simp [Window.sound, and_assoc, imp_iff_not_or]

/-- Every record of the table is sound. -/
def WindowTable.Sound (t : WindowTable) : Prop :=
  (∀ n : WindowId, t.windows[n].sound = true) ∧ t.catchAll.dropCount ≤ 65535

/-- The matched record is a FROZEN window. -/
def WindowTable.FrozenRef (t : WindowTable) (ref : WindowRef) : Prop :=
  ∃ n : WindowId, ref = .window n ∧ t.windows[n].state = .frozen

/-! ## What a step can do -/

/-- The parameters, the window table and the queue of a state. -/
structure Holdings where
  params : Params
  table : WindowTable
  queue : List WriteRecord

/-- What the laws of O54 speak of. -/
def State.holdings (s : State) : Holdings where
  params := s.startUp.params
  table := s.table
  queue := s.queue

/-- A queue with no record but those it had, its windows kept, and with no further record moved out of QUEUED. -/
structure QueueKept (before after : List WriteRecord) : Prop where
  windows : ∀ r ∈ after, ∃ old ∈ before, old.window = r.window
  tail : (∀ r ∈ before.tail, r.state = .queued) → ∀ r ∈ after.tail, r.state = .queued

/-- What one event can do to the parameters, the window table and the queue together. -/
inductive Turn (h : Holdings) : Holdings → Prop
  /-- The table and the parameters stay; records may leave, the head may change its state. -/
  | quiet {queue : List WriteRecord} (kept : QueueKept h.queue queue) :
      Turn h { h with queue := queue }
  /-- A write is accepted (R23). -/
  | accepted (r : WriteRecord) (queued : r.state = .queued) (thawed : ¬ h.table.FrozenRef r.window) :
      Turn h { h with queue := h.queue ++ [r] }
  /-- A posted write is dropped (R11). -/
  | dropped (ref : WindowRef) : Turn h { h with table := h.table.drop ref }
  /-- A window freezes and its records are withdrawn (R38, R39). -/
  | froze (n : WindowId) {queue : List WriteRecord} (fault : h.table.windows[n].fields.fault = .freeze)
      (kept : QueueKept h.queue queue) (drained : ∀ r ∈ queue, r.window ≠ .window n) :
      Turn h { h with table := h.table.setState n .frozen, queue := queue }
  /-- A window is enabled, disabled or thawed (R12 to R14). -/
  | moved (n : WindowId) (state : WindowState) (thawed : state ≠ .frozen) :
      Turn h { h with table := h.table.setState n state }
  /-- A window record is written (R15). -/
  | written (n : WindowId) (fields : WindowFields) (valid : fields.valid = true) :
      Turn h { h with table := { h.table with
        windows := h.table.windows.set n { state := .disabled, fields := fields, dropCount := 0 } } }
  /-- The catch-all record is written (R15). -/
  | catchAll (c : CatchAll) (zero : c.dropCount = 0) :
      Turn h { h with table := { h.table with catchAll := c } }
  /-- The parameters are replaced (R173). -/
  | params (new : Params) (valid : new.valid = true) : Turn h { h with params := new }
  /-- A configuration is put in force, or the power-on values are (R184, R188, R189). -/
  | configured {params : Params} {table : WindowTable} {queue : List WriteRecord}
      (valid : params.valid = true) (sound : table.Sound) (thawed : ∀ ref, ¬ table.FrozenRef ref)
      (kept : QueueKept h.queue queue) :
      Turn h { params := params, table := table, queue := queue }

/-! ### The queue of an event -/

theorem QueueKept.refl (q : List WriteRecord) : QueueKept q q where
  windows r hr := ⟨r, hr, rfl⟩
  tail h := h

theorem QueueKept.nil (q : List WriteRecord) : QueueKept q [] where
  windows r hr := by cases hr
  tail _ r hr := by cases hr

/-- Records leave from behind a head that leaves too. -/
theorem QueueKept.of_rest {q rest kept : List WriteRecord} {head : WriteRecord}
    (hq : q = head :: rest) (h : ∀ r ∈ kept, r ∈ rest) : QueueKept q kept := by
  subst hq
  exact ⟨fun r hr => ⟨r, List.mem_cons_of_mem _ (h r hr), rfl⟩,
    fun queued r hr => queued r (h r (List.mem_of_mem_tail hr))⟩

/-- The head alone changes, within its window. -/
theorem QueueKept.of_head {q rest : List WriteRecord} {head head' : WriteRecord}
    (hq : q = head :: rest) (h : head'.window = head.window) : QueueKept q (head' :: rest) := by
  subst hq
  refine ⟨fun r hr => ?_, fun queued => queued⟩
  rcases List.mem_cons.1 hr with rfl | hr
  · exact ⟨head, List.mem_cons_self .., h.symm⟩
  · exact ⟨r, List.mem_cons_of_mem _ hr, rfl⟩

/-- Each record changes, but neither its window nor its state. -/
theorem QueueKept.of_map (q : List WriteRecord) (f : WriteRecord → WriteRecord)
    (hw : ∀ r, (f r).window = r.window) (hs : ∀ r, (f r).state = r.state) :
    QueueKept q (q.map f) where
  windows r hr := by
    obtain ⟨old, ho, rfl⟩ := List.mem_map.1 hr
    exact ⟨old, ho, (hw old).symm⟩
  tail hq r hr := by
    rw [← List.map_tail] at hr
    obtain ⟨old, ho, rfl⟩ := List.mem_map.1 hr
    rw [hs]
    exact hq old ho

theorem Turn.refl (h : Holdings) : Turn h h :=
  .quiet (QueueKept.refl h.queue)

theorem Turn.of_eq {h h' : Holdings} (e : h' = h) : Turn h h' :=
  e ▸ Turn.refl h

/-- The head of the queue changes, within its window, and nothing else does. -/
theorem Turn.of_head {s u : State} {head head' : WriteRecord} {rest : List WriteRecord}
    (hq : s.queue = head :: rest) (hu : u.holdings = { s.holdings with queue := head' :: rest })
    (hw : head'.window = head.window) : Turn s.holdings u.holdings :=
  hu ▸ .quiet (.of_head hq hw)

/-- A turn of a state with the same holdings. -/
theorem Turn.from_same {s u : State} {h : Holdings} (turn : Turn u.holdings h)
    (same : u.holdings = s.holdings) : Turn s.holdings h :=
  same ▸ turn

/-! ### Updates that leave the holdings -/

namespace State

variable (s : State)

@[simp] theorem setPort_holdings (p : PortId) (x : Port) :
    (s.setPort p x).holdings = s.holdings := by simp [holdings]
@[simp] theorem setSlot_holdings (i : SlotId) (x : Slot) :
    (s.setSlot i x).holdings = s.holdings := rfl
@[simp] theorem logEvent_holdings (e : LogEvent) : (s.logEvent e).holdings = s.holdings := rfl
@[simp] theorem addEntry_holdings (e : Entry) : (s.addEntry e).holdings = s.holdings := rfl
@[simp] theorem weighReads_holdings : s.weighReads.holdings = s.holdings := rfl
@[simp] theorem settle_holdings : s.settle.holdings = s.holdings := by simp [holdings]
@[simp] theorem linkUp_holdings (p : PortId) : (s.linkUp p).holdings = s.holdings := by
  simp [holdings]
@[simp] theorem finish_holdings (place : Nat) (x : Status) (data : List Byte) :
    (s.finish place x data).holdings = s.holdings := by simp [holdings]
@[simp] theorem finishRead_holdings (poison : Bool) (line : LineData) (place : Nat) :
    (s.finishRead poison line place).holdings = s.holdings := by simp [holdings]
@[simp] theorem finishFence_holdings (place : Nat) (f : FenceFields) :
    (s.finishFence place f).holdings = s.holdings := by simp [holdings]
@[simp] theorem setReadAhead_holdings (ra : ReadAhead) :
    ({ s with readAhead := ra } : State).holdings = s.holdings := rfl
@[simp] theorem setTracker_holdings (tracker : List Entry) :
    ({ s with tracker := tracker } : State).holdings = s.holdings := rfl
@[simp] theorem logParity_holdings (r : WriteRecord) : (s.logParity r).holdings = s.holdings := by
  simp [holdings]
@[simp] theorem logLoss_holdings (records entries : Nat) :
    (s.logLoss records entries).holdings = s.holdings := by simp [holdings]
@[simp] theorem setWarmInput_holdings (level : Bool) :
    (s.setWarmInput level).holdings = s.holdings := rfl
@[simp] theorem setSelect_holdings (level : Bool) : (s.setSelect level).holdings = s.holdings := rfl
@[simp] theorem setResetInput_holdings (p : PortId) (level : Bool) :
    (s.setResetInput p level).holdings = s.holdings := by simp [holdings]
@[simp] theorem setLinkReady_holdings (p : PortId) (level : Bool) :
    (s.setLinkReady p level).holdings = s.holdings := by simp [holdings]

@[simp] theorem tick_holdings : s.tick.holdings = s.holdings := by
  unfold tick
  split <;> rfl

/-- The departures of an event leave the rest of the queue, and the holdings apart from it. -/
@[simp] theorem depart_holdings (rest : List WriteRecord) (rs : List Report) :
    (s.depart rest rs).holdings = { s.holdings with queue := rest } := by simp [holdings]

end State

/-! ### Taking an event or a command -/

theorem State.take_turn {s t : State} {event : Option State} (h : s.take event = .next t)
    (he : ∀ u, event = some u → Turn s.holdings u.holdings) : Turn s.holdings t.holdings := by
  obtain rfl | ⟨u, hu, _, rfl⟩ := State.take_eq_next h
  · exact Turn.refl _
  · rw [State.settle_holdings]
    exact he u hu

/-- A maintenance command is ignored, or its effect is answered. -/
theorem State.takeCommand_turn {s t : State} {i : Instr} {r : State × Answer}
    (h : s.takeCommand i r = .next t) (he : Turn s.holdings r.1.holdings) :
    Turn s.holdings t.holdings := by
  refine State.take_turn h fun u hu => ?_
  split at hu
  · injection hu with hu
    rw [← hu]
    exact he
  all_goals cases hu

/-- While RUNNING a command has its effect, else none (R168). -/
theorem State.whenRunning_turn {s : State} {r : State × Answer} (h : Turn s.holdings r.1.holdings) :
    Turn s.holdings (s.whenRunning r).1.holdings := by
  unfold State.whenRunning
  split
  · exact h
  · exact Turn.refl _

/-- A command on a window has its effect, or there is no such window (R168). -/
theorem State.withWindow_turn {s : State} {f : WindowId → State × Answer} (n : Byte)
    (h : ∀ w, Turn s.holdings (f w).1.holdings) :
    Turn s.holdings (s.withWindow n f).1.holdings := by
  unfold State.withWindow
  split
  · exact Turn.refl _
  · exact h _

/-! ### The write queue -/

/-- The window a failed posted record freezes has fault action FREEZE (R16). -/
theorem WindowTable.frozenBy_some {t : WindowTable} {r : WriteRecord} {n : WindowId}
    (h : t.frozenBy r = some n) : t.windows[n].fields.fault = .freeze := by
  unfold WindowTable.frozenBy at h
  split at h
  · cases h
  · split at h
    · rename_i hc
      obtain ⟨_, _, hf⟩ := hc
      cases h
      exact hf
    · cases h

theorem State.headFails_turn {s : State} {head : WriteRecord} {rest : List WriteRecord}
    (cause : MemCause) (hq : s.queue = head :: rest) :
    Turn s.holdings (s.headFails head rest cause).holdings := by
  have leaves : QueueKept s.queue rest := .of_rest hq fun _ hr => hr
  unfold State.headFails
  split
  · split
    · rw [State.depart_holdings]
      exact .quiet leaves
    · rw [State.depart_holdings]
      exact .quiet leaves
  · split
    · rw [State.postedFails, State.depart_holdings]
      exact .quiet leaves
    · rename_i n hn
      rw [State.postedFreezes, State.depart_holdings]
      refine .froze n (WindowTable.frozenBy_some hn) (.of_rest hq fun r hr => ?_) fun r hr => ?_
      · exact (List.mem_filter.1 hr).1
      · simpa using (List.mem_filter.1 hr).2

theorem State.headWaits_turn {s : State} {head : WriteRecord} {rest : List WriteRecord}
    (hq : s.queue = head :: rest) : Turn s.holdings (s.headWaits head rest).holdings := by
  unfold State.headWaits
  split
  · exact .of_head hq rfl rfl
  · exact State.headFails_turn _ hq

theorem State.headSucceeds_holdings (s : State) (head : WriteRecord) (rest : List WriteRecord) :
    (s.headSucceeds head rest).holdings = { s.holdings with queue := rest } := by
  unfold State.headSucceeds
  rw [State.depart_holdings]
  split
  · split <;> rfl
  · rfl

theorem State.headAnswered_turn {s : State} {head : WriteRecord} {rest : List WriteRecord}
    (kind : RespKind) (hq : s.queue = head :: rest) :
    Turn s.holdings (s.headAnswered head rest kind).holdings := by
  cases kind with
  | ok =>
    rw [State.headAnswered, State.headSucceeds_holdings]
    exact .quiet (.of_rest hq fun _ hr => hr)
  | okPoison => exact State.headFails_turn _ hq
  | wait => exact State.headWaits_turn hq
  | fault => exact State.headFails_turn _ hq

theorem State.writeBackoffEnd_turn {s u : State} (h : s.writeBackoffEnd = some u) :
    Turn s.holdings u.holdings := by
  unfold State.writeBackoffEnd at h
  split at h
  · cases h
  · rename_i head rest hq
    split at h
    · split at h
      · injection h with h
        subst h
        exact .of_head hq rfl rfl
      · cases h
    all_goals cases h

/-! ### Slots: grants, responses and deadlines -/

theorem State.issueOwner_turn (s : State) (g : Grant) :
    Turn s.holdings (s.issueOwner g).holdings := by
  unfold State.issueOwner
  split
  · split
    · exact Turn.refl _
    · rename_i head rest hq
      exact .of_head hq rfl rfl
  · exact Turn.refl _
  · exact Turn.refl _

theorem State.grant_turn {s u : State} (h : s.grant = some u) : Turn s.holdings u.holdings := by
  unfold State.grant at h
  split at h
  · injection h with h
    subst h
    exact (State.issueOwner_turn _ _).from_same rfl
  · cases h

@[simp] theorem State.readAnswered_holdings (s : State) (place : Nat) (r : Response) :
    (s.readAnswered place r).holdings = s.holdings := by
  unfold State.readAnswered
  split
  · rfl
  · split
    · rfl
    · rfl
    · split
      · simp
      · simp
      · unfold State.readWaits
        split <;> simp
      · simp

@[simp] theorem State.fetchSucceeds_holdings (s : State) (i : LineId) (poison : Bool)
    (line : LineData) : (s.fetchSucceeds i poison line).holdings = s.holdings :=
  foldl_keeps _ State.holdings (fun _ _ => by simp) _ s

@[simp] theorem State.fetchFails_holdings (s : State) (i : LineId) (cause : MemCause) :
    (s.fetchFails i cause).holdings = s.holdings :=
  foldl_keeps _ State.holdings (fun _ _ => by simp) _ s

@[simp] theorem State.fetchAnswered_holdings (s : State) (i : LineId) (r : Response) :
    (s.fetchAnswered i r).holdings = s.holdings := by
  unfold State.fetchAnswered
  split
  · simp
  · simp
  · unfold State.fetchWaits
    split
    · rfl
    · split <;> simp
  · simp

theorem State.deliver_turn (s : State) (owner : SlotOwner) (r : Response) :
    Turn s.holdings (s.deliver owner r).holdings := by
  cases owner with
  | write place =>
    rw [State.deliver, State.writeAnswered]
    split
    · exact Turn.refl _
    · rename_i hq
      split
      · exact State.headAnswered_turn _ hq
      · exact Turn.refl _
  | demand entry =>
    cases entry with
    | none => exact Turn.refl _
    | some place => exact .of_eq (State.readAnswered_holdings s place r)
  | fetch i => exact .of_eq (State.fetchAnswered_holdings s i r)

theorem State.respond_turn (s : State) (r : Response) :
    Turn s.holdings (s.respond r).holdings := by
  unfold State.respond
  split
  · exact Turn.refl _
  · exact Turn.refl _
  · exact (State.deliver_turn _ _ _).from_same (s.setSlot_holdings _ _)

theorem State.tellTimeout_turn (s : State) (owner : SlotOwner) :
    Turn s.holdings (s.tellTimeout owner).holdings := by
  cases owner with
  | write place =>
    rw [State.tellTimeout, State.writeTimesOut]
    split
    · exact Turn.refl _
    · rename_i hq
      split
      · exact State.headFails_turn _ hq
      · exact Turn.refl _
  | demand entry =>
    cases entry with
    | none => exact Turn.refl _
    | some place => exact .of_eq (State.finish_holdings s place _ _)
  | fetch i => exact .of_eq (State.fetchFails_holdings s i _)

theorem State.slotDeadline_turn {s u : State} {i : SlotId} (h : s.slotDeadline i = some u) :
    Turn s.holdings u.holdings := by
  unfold State.slotDeadline at h
  split at h
  · cases h
  · cases h
  · split at h
    · injection h with h
      subst h
      exact (State.tellTimeout_turn _ _).from_same (s.setSlot_holdings _ _)
    · cases h

theorem State.readBackoffEnd_holdings {s u : State} {p : PortId} {tag : Byte}
    (h : s.readBackoffEnd p tag = some u) : u.holdings = s.holdings := by
  unfold State.readBackoffEnd at h
  split at h
  · cases h
  · split at h
    · split at h
      · cases h
        rfl
      · cases h
    · cases h

theorem State.fetchBackoffEnd_holdings {s u : State} {i : LineId}
    (h : s.fetchBackoffEnd i = some u) : u.holdings = s.holdings := by
  unfold State.fetchBackoffEnd at h
  split at h
  · cases h
  · split at h
    · split at h
      · cases h
        rfl
      · cases h
    all_goals cases h

theorem State.idleExpiry_holdings {s u : State} {k : StreamId} (h : s.idleExpiry k = some u) :
    u.holdings = s.holdings := by
  unfold State.idleExpiry at h
  split at h
  · cases h
  · split at h
    · cases h
      rfl
    · cases h

/-! ### Ports and requests -/

/-- Discarding a port's work takes links from records and nothing else (R44). -/
theorem State.discardPort_turn (s : State) (p : PortId) :
    Turn s.holdings (s.discardPort p).holdings := by
  rw [State.discardPort, State.setPort_holdings]
  refine .quiet (QueueKept.of_map s.queue (WriteRecord.unlinked p) ?_ ?_) <;>
    (intro r; unfold WriteRecord.unlinked; split <;> rfl)

theorem State.protocolError_turn (s : State) (p : PortId) (cause : ProtocolCause) (r : Request) :
    Turn s.holdings (s.protocolError p cause r).holdings := by
  have h := State.discardPort_turn ((s.logEvent (.portProtocol p cause r.tag? r.length?)).setPort p
    { (s.logEvent (.portProtocol p cause r.tag? r.length?)).port p with state := .faulted }) p
  rwa [State.setPort_holdings, State.logEvent_holdings] at h

theorem State.portDown_turn (s : State) (p : PortId) :
    Turn s.holdings (s.portDown p).holdings := by
  have cut : Turn s.holdings
      ((s.setPort p { s.port p with state := .down }).discardPort p).holdings := by
    simpa using State.discardPort_turn (s.setPort p { s.port p with state := .down }) p
  unfold State.portDown
  split
  · exact Turn.refl _
  · exact cut
  · exact cut

@[simp] theorem State.handOffRead_holdings (s : State) (p : PortId) (tag : Byte) (address : Addr)
    (length : Byte) : (s.handOffRead p tag address length).holdings = s.holdings := by
  have presented : ∀ fields w, (s.readPresented p tag fields w).holdings = s.holdings := by
    intro fields w
    unfold State.readPresented
    split
    · unfold State.readHit State.addRead
      dsimp only
      split <;> simp [State.holdings]
    · rfl
    · rfl
  unfold State.handOffRead
  dsimp only
  split
  · split
    · simp [State.readUnmapped, State.addRead]
    · rfl
  · split
    · exact presented _ _
    · rfl

/-- A FROZEN window turns every write away (R10). -/
theorem WindowTable.writeRefusal_frozen {t : WindowTable} {n : WindowId}
    (h : t.windows[n].state = .frozen) : t.writeRefusal (.window n) = some .frozen := by
  simp only [WindowTable.writeRefusal]
  rw [h]

/-- A write that its matched record does not turn away does not match a FROZEN window (R10). -/
theorem WindowTable.not_frozenRef_of_accepts {t : WindowTable} {ref : WindowRef}
    (h : t.writeRefusal ref = none) : ¬ t.FrozenRef ref := by
  rintro ⟨n, rfl, hf⟩
  rw [WindowTable.writeRefusal_frozen hf] at h
  cases h

theorem State.handOffWrite_turn (s : State) (p : PortId) (ack : Bool) (tag : Byte)
    (address : Addr) (data : List LinkByte) :
    Turn s.holdings (s.handOffWrite p ack tag address data).holdings := by
  unfold State.handOffWrite
  dsimp only
  split
  · rename_i hr
    have placed : (s.takePlace p ack tag).holdings = s.holdings := by
      unfold State.takePlace
      split <;> rfl
    refine Turn.from_same (u := (s.takePlace p ack tag).logParity
      (s.newRecord p (s.table.matching address) ack tag address data)) (.accepted _ rfl ?_)
      ((State.logParity_holdings _ _).trans placed)
    rw [State.logParity_holdings, placed]
    exact WindowTable.not_frozenRef_of_accepts hr
  · split
    · exact .of_eq (by simp [State.refuseWrite, State.oweWrite, State.addAckedWrite])
    · rw [State.dropWrite, State.setPort_holdings]
      exact .dropped _

@[simp] theorem State.handOffFence_holdings (s : State) (p : PortId) (tag : Byte) (scope : Scope)
    (purge : Bool) : (s.handOffFence p tag scope purge).holdings = s.holdings := by
  unfold State.handOffFence
  dsimp only
  split <;> simp

theorem State.handOff_turn (s : State) (p : PortId) (r : Request) :
    Turn s.holdings (s.handOff p r).holdings := by
  cases r with
  | read tag address length => exact .of_eq (State.handOffRead_holdings s p tag address length)
  | write ack tag address length data => exact State.handOffWrite_turn s p ack tag address data
  | fence tag scope purge => exact .of_eq (State.handOffFence_holdings s p tag scope purge)
  | unknown => exact Turn.refl _

theorem State.requestArrives_turn {s u : State} {p : PortId} {r : Request}
    (h : s.requestArrives p r = some u) : Turn s.holdings u.holdings := by
  unfold State.requestArrives at h
  split at h
  · split at h
    · injection h with h
      rw [← h]
      exact State.protocolError_turn _ _ _ _
    · injection h with h
      rw [← h, State.handOver]
      split
      · exact State.protocolError_turn _ _ _ _
      · rw [← State.setPort_holdings s p (r.spend (s.port p))]
        dsimp only
        split
        · exact State.protocolError_turn _ _ _ _
        · exact State.handOff_turn _ _ _
  · cases h

/-! ### Sending -/

theorem State.completionBegin_holdings {s u : State} {p : PortId}
    (h : s.completionBegin p = some u) : u.holdings = s.holdings := by
  unfold State.completionBegin at h
  split at h
  · split at h
    · cases h
    · cases h
      exact State.setPort_holdings ..
  · cases h

theorem State.completionSent_holdings {s u : State} {p : PortId}
    (h : s.completionSent p = some u) : u.holdings = s.holdings := by
  unfold State.completionSent at h
  split at h
  · cases h
    unfold State.freeEntry
    split <;> simp [State.holdings]
  · cases h

theorem State.creditBegin_holdings {s u : State} {p : PortId} (h : s.creditBegin p = some u) :
    u.holdings = s.holdings := by
  unfold State.creditBegin at h
  split at h
  · cases h
    exact State.setPort_holdings ..
  · cases h

theorem State.creditSent_holdings {s u : State} {p : PortId} (h : s.creditSent p = some u) :
    u.holdings = s.holdings := by
  unfold State.creditSent at h
  split at h
  · cases h
    exact State.setPort_holdings ..
  · cases h
  · cases h

/-! ### Configuration -/

theorem paramsOf_valid {b : ParamBytes} {p : Params} (h : paramsOf b = some p) :
    p.valid = true := by
  unfold paramsOf at h
  dsimp only at h
  split at h
  · rename_i hv
    cases h
    exact hv
  · cases h

theorem windowFieldsOf_valid {b : WindowBytes} {f : WindowFields} (h : windowFieldsOf b = some f) :
    f.valid = true := by
  unfold windowFieldsOf at h
  split at h
  · dsimp only at h
    split at h
    · rename_i hv
      cases h
      exact hv
    · cases h
  · cases h

/-- A window record of the image is sound, and it is not FROZEN (R187, R188). -/
theorem imageWindow_sound {bytes : List Byte} {i : Nat} {w : Window}
    (h : imageWindow bytes i = some w) : w.sound = true ∧ w.state ≠ .frozen := by
  unfold imageWindow at h
  split at h
  · rename_i hf _
    cases h
    exact ⟨(Window.sound_iff _).2 ⟨windowFieldsOf_valid hf, Nat.zero_le _, nofun⟩, nofun⟩
  · rename_i hf _
    cases h
    exact ⟨(Window.sound_iff _).2 ⟨windowFieldsOf_valid hf, Nat.zero_le _, nofun⟩, nofun⟩
  · cases h

theorem imageWindows_sound {bytes : List Byte} {count n : Nat} {ws : List Window}
    (h : imageWindows bytes count n = .ok ws) :
    ∀ w ∈ ws, w.sound = true ∧ w.state ≠ .frozen := by
  induction count generalizing n ws with
  | zero =>
    cases h
    intro w hw
    cases hw
  | succ count ih =>
    unfold imageWindows at h
    split at h
    · cases h
    · rename_i w hw
      split at h
      · cases h
      · rename_i ws' hws
        cases h
        intro x hx
        rcases List.mem_cons.1 hx with rfl | hx
        · exact imageWindow_sound hw
        · exact ih hws x hx

/-- What the field check guarantees of an image (R187). -/
theorem fieldCheck_sound {bytes : List Byte} {count : Nat} {image : Image}
    (h : fieldCheck bytes count = .ok image) : image.params.valid = true ∧
      ∀ w ∈ image.windows, w.sound = true ∧ w.state ≠ .frozen := by
  unfold fieldCheck at h
  split at h
  · rename_i hp _
    split at h
    · split at h
      · cases h
      · rename_i hw
        cases h
        exact ⟨paramsOf_valid hp, imageWindows_sound hw⟩
    · cases h
  · cases h

theorem checkImage_sound {flash : List Byte} {image : Image} (h : checkImage flash = .ok image) :
    image.params.valid = true ∧ ∀ w ∈ image.windows, w.sound = true ∧ w.state ≠ .frozen := by
  unfold checkImage at h
  dsimp only at h
  split at h
  · cases h
  split at h
  · cases h
  split at h
  · cases h
  split at h
  · cases h
  split at h
  · cases h
  split at h
  · cases h
  · rename_i hf
    cases h
    exact fieldCheck_sound hf

/-- A table of sound windows, none of them FROZEN, and a catch-all that has counted nothing. -/
theorem WindowTable.fresh {f : Nat → Window} {c : CatchAll}
    (h : ∀ i, (f i).sound = true ∧ (f i).state ≠ .frozen) (hc : c.dropCount = 0) :
    WindowTable.Sound { windows := vecOf 8 f, catchAll := c } ∧
      ∀ ref, ¬ WindowTable.FrozenRef { windows := vecOf 8 f, catchAll := c } ref := by
  refine ⟨⟨fun n => ?_, by rw [hc]; exact Nat.zero_le _⟩, ?_⟩
  · rw [vecOf_getElem_fin]
    exact (h _).1
  · rintro ref ⟨n, -, hf⟩
    rw [vecOf_getElem_fin] at hf
    exact (h _).2 hf

theorem Params.default_valid : Params.default.valid = true := by decide

theorem Window.zero_fresh : Window.zero.sound = true ∧ Window.zero.state ≠ .frozen := by decide

theorem State.endLoad_turn (s : State) (flash : List Byte) :
    Turn s.holdings (s.endLoad flash).holdings := by
  unfold State.endLoad
  dsimp only
  rw [State.linkUp_holdings, State.linkUp_holdings]
  split
  · rename_i image hi
    obtain ⟨valid, sound⟩ := checkImage_sound hi
    obtain ⟨tableSound, thawed⟩ := WindowTable.fresh
      (f := fun i => image.windows.getD i Window.zero)
      (c := { mode := image.mode, retry := image.retry, dropCount := 0 })
      (fun i => by
        rw [List.getD_eq_getElem?_getD]
        cases hw : image.windows[i]? with
        | none => exact Window.zero_fresh
        | some w => exact sound w (List.mem_of_getElem? hw)) rfl
    exact .configured valid tableSound thawed (QueueKept.refl _)
  · obtain ⟨tableSound, thawed⟩ :=
      WindowTable.fresh (c := CatchAll.fallback) (fun _ : Nat => Window.zero_fresh) rfl
    exact .configured Params.default_valid tableSound thawed (QueueKept.refl _)

theorem State.powerOnValues_turn (s : State) : Turn s.holdings s.powerOnValues.holdings := by
  obtain ⟨tableSound, thawed⟩ :=
    WindowTable.fresh (c := CatchAll.fallback) (fun _ : Nat => Window.zero_fresh) rfl
  exact .configured Params.default_valid tableSound thawed (QueueKept.nil _)

theorem State.warmReset_turn (s : State) : Turn s.holdings s.warmReset.holdings := by
  rw [State.warmReset, State.logLoss_holdings]
  exact .quiet (QueueKept.nil _)

/-! ### Maintenance commands -/

theorem State.setWindow_turn (s : State) (w : WindowId) {fields : WindowFields}
    (h : fields.valid = true) : Turn s.holdings (s.setWindow w fields).1.holdings := by
  unfold State.setWindow
  split
  · exact .written w fields h
  · exact Turn.refl _

theorem State.enableWindow_turn (s : State) (w : WindowId) :
    Turn s.holdings (s.enableWindow w).1.holdings := by
  unfold State.enableWindow
  split
  · exact .moved w .enabled (by decide)
  · exact Turn.refl _
  · exact Turn.refl _

theorem State.disableWindow_turn (s : State) (w : WindowId) :
    Turn s.holdings (s.disableWindow w).1.holdings := by
  unfold State.disableWindow
  split
  · exact Turn.refl _
  · exact .moved w .disabled (by decide)
  · exact .moved w .disabled (by decide)

theorem State.thawWindow_turn (s : State) (w : WindowId) :
    Turn s.holdings (s.thawWindow w).1.holdings := by
  unfold State.thawWindow
  split
  · exact .moved w .enabled (by decide)
  · exact Turn.refl _
  · exact Turn.refl _

theorem State.setParams_turn (s : State) {new : Params} (h : new.valid = true) :
    Turn s.holdings (s.setParams new).1.holdings := by
  have replaced : (s.replaceParams new).holdings = { s.holdings with params := new } := by
    unfold State.replaceParams
    dsimp only
    split <;> rfl
  have expired : ∀ (u : State) (idle : Nat), (u.expireAtOnce idle).holdings = u.holdings := by
    intro u idle
    unfold State.expireAtOnce
    split <;> rfl
  unfold State.setParams
  split
  · exact Turn.refl _
  · rw [expired, replaced]
    exact .params new h

theorem State.reclaimSlots_holdings (s : State) : s.reclaimSlots.1.holdings = s.holdings := by
  unfold State.reclaimSlots
  dsimp only
  split <;> rfl

theorem State.beginQuiesce_holdings (s : State) : s.beginQuiesce.1.holdings = s.holdings := by
  unfold State.beginQuiesce
  split <;> rfl

theorem State.resume_holdings (s : State) : s.resume.1.holdings = s.holdings := by
  unfold State.resume
  split <;> rfl

theorem State.popLog_holdings (s : State) : s.popLog.1.holdings = s.holdings := by
  unfold State.popLog
  split <;> rfl

/-! ### Every command -/

/-- What a command of the maintenance port can do. -/
theorem exec_maintenance_turn {i : Instr} {s t : State} (h : exec i s = .next t)
    (hc : i.commandPart ≠ []) : Turn s.holdings t.holdings := by
  cases i with
  | unknownCommand code =>
    rw [exec_unknownCommand, execUnknownCommand] at h
    split at h
    · cases h
      exact Turn.refl _
    · exact State.takeCommand_turn h (Turn.refl _)
  | getStatus => exact State.takeCommand_turn h (Turn.refl _)
  | getWindow n =>
    exact State.takeCommand_turn h
      (State.whenRunning_turn (State.withWindow_turn n fun _ => Turn.refl _))
  | setWindow n record =>
    refine State.takeCommand_turn h (State.whenRunning_turn (State.withWindow_turn n fun w => ?_))
    split
    · exact Turn.refl _
    · rename_i hf
      exact State.setWindow_turn s w (windowFieldsOf_valid hf)
  | enableWindow n =>
    exact State.takeCommand_turn h
      (State.whenRunning_turn (State.withWindow_turn n s.enableWindow_turn))
  | disableWindow n =>
    exact State.takeCommand_turn h
      (State.whenRunning_turn (State.withWindow_turn n s.disableWindow_turn))
  | thawWindow n =>
    exact State.takeCommand_turn h
      (State.whenRunning_turn (State.withWindow_turn n s.thawWindow_turn))
  | getCatchall => exact State.takeCommand_turn h (State.whenRunning_turn (Turn.refl _))
  | setCatchall mode retryCode =>
    refine State.takeCommand_turn h (State.whenRunning_turn ?_)
    split
    · exact .catchAll _ rfl
    · exact Turn.refl _
  | getParams => exact State.takeCommand_turn h (State.whenRunning_turn (Turn.refl _))
  | setParams params =>
    refine State.takeCommand_turn h (State.whenRunning_turn ?_)
    split
    · exact Turn.refl _
    · rename_i hp
      exact State.setParams_turn s (paramsOf_valid hp)
  | setAlertMask mask =>
    refine State.takeCommand_turn h (State.whenRunning_turn ?_)
    split <;> exact Turn.refl _
  | peekLog => exact State.takeCommand_turn h (State.whenRunning_turn (Turn.refl _))
  | popLog => exact State.takeCommand_turn h (State.whenRunning_turn (.of_eq s.popLog_holdings))
  | clearOverflow => exact State.takeCommand_turn h (State.whenRunning_turn (Turn.refl _))
  | reclaimSlots =>
    exact State.takeCommand_turn h (State.whenRunning_turn (.of_eq s.reclaimSlots_holdings))
  | quiesce =>
    exact State.takeCommand_turn h (State.whenRunning_turn (.of_eq s.beginQuiesce_holdings))
  | resume => exact State.takeCommand_turn h (State.whenRunning_turn (.of_eq s.resume_holdings))
  | _ => exact absurd rfl hc

/-- An event of an input, taken after its level has been followed. -/
theorem State.takeAt_turn {s s' t : State} {event : State} (hs : s'.holdings = s.holdings)
    (h : s'.take (some event) = .next t) (he : Turn s'.holdings event.holdings) :
    Turn s.holdings t.holdings := by
  rw [← hs]
  refine State.take_turn h fun u hu => ?_
  cases hu
  exact he

/-- What any command can do to the parameters, the window table and the queue. -/
theorem exec_turn {i : Instr} {s t : State} (h : exec i s = .next t) :
    Turn s.holdings t.holdings := by
  cases i with
  | powerOnResetAssert =>
    rw [exec_powerOnResetAssert, execPowerOnResetAssert] at h
    split at h <;> cases h
    · exact Turn.refl _
    · exact s.powerOnValues_turn
  | powerOnResetRelease =>
    rw [exec_powerOnResetRelease, execPowerOnResetRelease] at h
    split at h <;> cases h
    · exact s.powerOnValues_turn
    · exact Turn.refl _
  | loadEnd flash =>
    refine State.take_turn h fun u hu => ?_
    split at hu <;> cases hu
    exact s.endLoad_turn flash
  | warmResetAssert =>
    rw [exec_warmResetAssert, execWarmResetAssert] at h
    split at h
    · cases h
      exact Turn.refl _
    · exact State.takeAt_turn (s.setWarmInput_holdings true) h (State.warmReset_turn _)
  | warmResetRelease =>
    rw [exec_warmResetRelease, execWarmResetRelease] at h
    split at h
    · exact State.takeAt_turn (s.setWarmInput_holdings false) h (.of_eq (by simp))
    · cases h
      exact Turn.refl _
  | portResetAssert p =>
    rw [exec_portResetAssert, execPortResetAssert] at h
    split at h
    · cases h
      exact Turn.refl _
    · exact State.takeAt_turn (s.setResetInput_holdings p true) h (State.portDown_turn _ p)
  | linkReadyLoss p =>
    rw [exec_linkReadyLoss, execLinkReadyLoss] at h
    split at h
    · exact State.takeAt_turn (s.setLinkReady_holdings p false) h (State.portDown_turn _ p)
    · cases h
      exact Turn.refl _
  | portResetRelease p =>
    rw [exec_portResetRelease, execPortResetRelease] at h
    split at h
    · exact State.takeAt_turn (s.setResetInput_holdings p false) h (.of_eq (by simp))
    · cases h
      exact Turn.refl _
  | linkReadyArrival p =>
    rw [exec_linkReadyArrival, execLinkReadyArrival] at h
    split at h
    · cases h
      exact Turn.refl _
    · exact State.takeAt_turn (s.setLinkReady_holdings p true) h (.of_eq (by simp))
  | requestRead p rest => exact State.take_turn h fun _ hu => State.requestArrives_turn hu
  | requestWrite p rest => exact State.take_turn h fun _ hu => State.requestArrives_turn hu
  | requestFence p rest => exact State.take_turn h fun _ hu => State.requestArrives_turn hu
  | requestOfNoKnownKind p message =>
    exact State.take_turn h fun _ hu => State.requestArrives_turn hu
  | grant => exact State.take_turn h fun _ hu => State.grant_turn hu
  | response message =>
    rw [exec_response, execResponse] at h
    exact State.takeAt_turn rfl h (State.respond_turn _ _)
  | slotDeadline i => exact State.take_turn h fun _ hu => State.slotDeadline_turn hu
  | writeBackoffEnd => exact State.take_turn h fun _ hu => State.writeBackoffEnd_turn hu
  | readBackoffEnd p tag =>
    exact State.take_turn h fun _ hu => .of_eq (State.readBackoffEnd_holdings hu)
  | fetchBackoffEnd i =>
    exact State.take_turn h fun _ hu => .of_eq (State.fetchBackoffEnd_holdings hu)
  | idleExpiry k => exact State.take_turn h fun _ hu => .of_eq (State.idleExpiry_holdings hu)
  | completionBegin p =>
    exact State.take_turn h fun _ hu => .of_eq (State.completionBegin_holdings hu)
  | completionSent p =>
    exact State.take_turn h fun _ hu => .of_eq (State.completionSent_holdings hu)
  | creditBegin p => exact State.take_turn h fun _ hu => .of_eq (State.creditBegin_holdings hu)
  | creditSent p => exact State.take_turn h fun _ hu => .of_eq (State.creditSent_holdings hu)
  | selectAssert =>
    rw [exec_selectAssert, execSelectAssert] at h
    split at h
    · cases h
      exact Turn.refl _
    · exact State.takeAt_turn (s.setSelect_holdings true) h (Turn.refl _)
  | selectRelease =>
    rw [exec_selectRelease, execSelectRelease] at h
    split at h
    · exact State.takeAt_turn (s.setSelect_holdings false) h (Turn.refl _)
    · cases h
      exact Turn.refl _
  | lastBitOfResponseSent =>
    refine State.take_turn h fun u hu => ?_
    split at hu <;> cases hu
    exact Turn.refl _
  | _ => exact exec_maintenance_turn h (List.cons_ne_nil _ _)

/-- What a step can do to the parameters, the window table and the queue. -/
theorem step_turn {s t : State} (h : step s = .next t) : Turn s.holdings t.holdings := by
  unfold step at h
  split at h
  · cases h
    exact .of_eq s.tick_holdings
  · exact (exec_turn h).from_same rfl

/-! ## The laws a turn keeps -/

theorem Turn.keeps_params {h h' : Holdings} (turn : Turn h h') (valid : h.params.valid = true) :
    h'.params.valid = true := by
  cases turn with
  | params new new_valid => exact new_valid
  | configured params_valid => exact params_valid
  | _ => exact valid

/-- A table with one window written stays sound when the new record is. -/
theorem WindowTable.Sound.set {t : WindowTable} (sound : t.Sound) (n : WindowId) {w : Window}
    (hw : w.sound = true) : WindowTable.Sound { t with windows := t.windows.set n w } := by
  refine ⟨fun m => ?_, sound.2⟩
  rw [set_getElem_fin]
  split
  · exact hw
  · exact sound.1 m

theorem WindowTable.Sound.setState {t : WindowTable} (sound : t.Sound) (n : WindowId)
    {state : WindowState} (h : state = .frozen → t.windows[n].fields.fault = .freeze) :
    (t.setState n state).Sound := by
  obtain ⟨valid, count, _⟩ := (Window.sound_iff _).1 (sound.1 n)
  exact sound.set n ((Window.sound_iff _).2 ⟨valid, count, h⟩)

theorem WindowTable.Sound.drop {t : WindowTable} (sound : t.Sound) (ref : WindowRef) :
    (t.drop ref).Sound := by
  cases ref with
  | catchAll => exact ⟨sound.1, countDrop_le _⟩
  | window n =>
    obtain ⟨valid, _, frozen⟩ := (Window.sound_iff _).1 (sound.1 n)
    exact sound.set n ((Window.sound_iff _).2 ⟨valid, countDrop_le _, frozen⟩)

theorem Turn.keeps_table {h h' : Holdings} (turn : Turn h h') (sound : h.table.Sound) :
    h'.table.Sound := by
  cases turn with
  | quiet _ => exact sound
  | accepted r _ _ => exact sound
  | dropped ref => exact sound.drop ref
  | froze n fault _ _ => exact sound.setState n fun _ => fault
  | moved n state thawed => exact sound.setState n fun e => absurd e thawed
  | written n fields valid =>
    exact sound.set n ((Window.sound_iff _).2 ⟨valid, Nat.zero_le _, fun e => by cases e⟩)
  | catchAll c zero => exact ⟨sound.1, by rw [zero]; exact Nat.zero_le _⟩
  | params _ _ => exact sound
  | configured _ tableSound _ _ => exact tableSound

/-- No record of the queue names a FROZEN window (R39). -/
def Holdings.Drained (h : Holdings) : Prop :=
  ∀ r ∈ h.queue, ¬ h.table.FrozenRef r.window

/-- Records that keep their windows stay clear of FROZEN windows. -/
theorem Holdings.Drained.of_kept {h : Holdings} (drained : h.Drained) {queue : List WriteRecord}
    (kept : QueueKept h.queue queue) : ∀ r ∈ queue, ¬ h.table.FrozenRef r.window := by
  intro r hr
  obtain ⟨old, ho, hw⟩ := kept.windows r hr
  rw [← hw]
  exact drained old ho

/-- A window table in which no further window is FROZEN. -/
theorem WindowTable.FrozenRef.of_states {t t' : WindowTable} {ref : WindowRef}
    (hs : ∀ n : WindowId, t'.windows[n].state = .frozen → t.windows[n].state = .frozen)
    (h : t'.FrozenRef ref) : t.FrozenRef ref := by
  obtain ⟨n, hn, hf⟩ := h
  exact ⟨n, hn, hs n hf⟩

theorem WindowTable.FrozenRef.of_set {t : WindowTable} {n : WindowId} {w : Window}
    {ref : WindowRef} (hw : w.state ≠ .frozen)
    (h : WindowTable.FrozenRef { t with windows := t.windows.set n w } ref) : t.FrozenRef ref := by
  refine h.of_states fun m hm => ?_
  rw [set_getElem_fin] at hm
  split at hm
  · exact absurd hm hw
  · exact hm

theorem Turn.keeps_drained {h h' : Holdings} (turn : Turn h h') (drained : h.Drained) :
    h'.Drained := by
  cases turn with
  | quiet kept => exact drained.of_kept kept
  | accepted r _ thawed =>
    intro x hx
    rcases List.mem_append.1 hx with hx | hx
    · exact drained x hx
    · rw [List.mem_singleton.1 hx]
      exact thawed
  | dropped ref =>
    intro r hr hf
    exact drained r hr (hf.of_states fun n hn => by rwa [WindowTable.drop_state] at hn)
  | froze n _ kept gone =>
    rintro r hr ⟨m, hm, hf⟩
    rw [WindowTable.setState_windows] at hf
    split at hf
    · rename_i hmn
      exact gone r hr (hmn ▸ hm)
    · exact drained.of_kept kept r hr ⟨m, hm, hf⟩
  | moved n state thawed => exact fun r hr hf => drained r hr (hf.of_set thawed)
  | written n fields _ => exact fun r hr hf => drained r hr (hf.of_set (by simp))
  | catchAll c _ => exact fun r hr hf => drained r hr (hf.of_states fun _ hn => hn)
  | params _ _ => exact drained
  | configured _ _ thawed _ => exact fun r _ => thawed r.window

/-- Every record but the head is QUEUED (R27). -/
def Holdings.OnlyHeadMoves (h : Holdings) : Prop :=
  ∀ r ∈ h.queue.tail, r.state = .queued

theorem Turn.keeps_onlyHeadMoves {h h' : Holdings} (turn : Turn h h') (only : h.OnlyHeadMoves) :
    h'.OnlyHeadMoves := by
  cases turn with
  | quiet kept => exact kept.tail only
  | accepted r queued _ =>
    intro x hx
    change x ∈ (h.queue ++ [r]).tail at hx
    cases hq : h.queue with
    | nil =>
      rw [hq] at hx
      cases hx
    | cons head rest =>
      rw [hq, List.cons_append, List.tail_cons, List.mem_append, List.mem_singleton] at hx
      rcases hx with hx | rfl
      · exact only x (by rw [hq]; exact hx)
      · exact queued
  | froze _ _ kept _ => exact kept.tail only
  | configured _ _ _ kept => exact kept.tail only
  | _ => exact only

/-! ## The laws as they are computed -/

theorem State.tableSound_iff (s : State) : s.tableSound = true ↔ s.holdings.table.Sound := by
  simp only [State.tableSound, Bool.and_eq_true, List.all_eq_true, decide_eq_true_eq,
    mem_allWindows, forall_const, WindowTable.Sound, State.holdings]

theorem State.isFrozenRef_iff (s : State) (ref : WindowRef) :
    s.isFrozenRef ref = true ↔ s.table.FrozenRef ref := by
  cases ref with
  | catchAll => simp [State.isFrozenRef, WindowTable.FrozenRef]
  | window n => simp [State.isFrozenRef, WindowTable.FrozenRef]

theorem State.frozenDrained_iff (s : State) : s.frozenDrained = true ↔ s.holdings.Drained := by
  simp only [State.frozenDrained, List.all_eq_true, Bool.not_eq_true', ← Bool.not_eq_true,
    State.isFrozenRef_iff]
  rfl

theorem State.onlyHeadMoves_iff (s : State) :
    s.onlyHeadMoves = true ↔ s.holdings.OnlyHeadMoves := by
  simp only [State.onlyHeadMoves, List.all_eq_true, decide_eq_true_eq]
  rfl

/-- Settles O54: each law is one of the parameters, the table and the queue, and every turn keeps it. -/
theorem stepKeepsWindowsAndQueueSound : Obligations.StepKeepsWindowsAndQueueSound := by
  refine ⟨fun s t hs h => ?_, fun s t hs h => ?_, fun s t hs h => ?_, fun s t hs h => ?_⟩
  · exact (step_turn h).keeps_params hs
  · rw [State.tableSound_iff] at hs ⊢
    exact (step_turn h).keeps_table hs
  · rw [Bool.and_eq_true, State.tableSound_iff, State.frozenDrained_iff] at hs ⊢
    obtain ⟨sound, drained⟩ := hs
    exact ⟨(step_turn h).keeps_table sound, (step_turn h).keeps_drained drained⟩
  · rw [State.onlyHeadMoves_iff] at hs ⊢
    exact (step_turn h).keeps_onlyHeadMoves hs

end Sys2Proof.Machine
end

section
/-! SUPPORT. Lanes, window matching and translation, and the configuration bytes (O23, O24, O43). -/

namespace Sys2Proof.Machine

/-! ## Lanes -/

/-- The lane maps by their table (Section 1.4). -/
theorem laneMap_table (p : Nat) : laneMap .asIs p = p ∧
    laneMap .swap32 p = 4 * (p / 4) + (3 - p % 4) ∧
    laneMap .swap64 p = 8 * (p / 8) + (7 - p % 8) := by
  simp only [laneMap, true_and]
  omega

/-- A position is flagged exactly when it is the mapped place of a position of the span (R7). -/
theorem inSpan_iff_mapped (lane : LaneOrder) (offset length q : Nat) :
    inSpan lane offset length q = true ↔ ∃ i, i < length ∧ laneMap lane (offset + i) = q := by
  rw [inSpan_iff]
  constructor
  · rintro ⟨lower, upper⟩
    refine ⟨laneMap lane q - offset, by omega, ?_⟩
    rw [Nat.add_sub_cancel' lower, laneMap_laneMap]
  · rintro ⟨i, hi, rfl⟩
    rw [laneMap_laneMap]
    omega

/-- A lane map only reorders the positions of a line. -/
theorem laneMap_perm (lane : LaneOrder) :
    ((List.range 64).map (laneMap lane)).Perm (List.range 64) := by
  have injective : Function.Injective (laneMap lane) :=
    Function.LeftInverse.injective (laneMap_laneMap lane)
  refine (List.perm_ext_iff_of_nodup (List.nodup_range.map injective) List.nodup_range).2
    fun q => ?_
  rw [List.mem_map, List.mem_range]
  constructor
  · rintro ⟨p, hp, rfl⟩
    exact laneMap_lt lane p (List.mem_range.1 hp)
  · intro hq
    exact ⟨laneMap lane q, List.mem_range.2 (laneMap_lt lane q hq), laneMap_laneMap lane q⟩

/-- How many of the first `n` numbers lie in a span. -/
theorem countP_range_span (offset length n : Nat) :
    (List.range n).countP (fun q => decide (offset ≤ q) && decide (q < offset + length)) =
      min n (offset + length) - min n offset := by
  induction n with
  | zero => simp
  | succ n ih =>
    rw [List.range_succ, List.countP_append, ih, List.countP_singleton]
    simp only [Bool.and_eq_true, decide_eq_true_eq]
    split <;> omega

/-- A span's mask has as many flags as the span has bytes (R20). -/
theorem maskCount_spanMask (lane : LaneOrder) (offset length : Nat) (h : offset + length ≤ 64) :
    maskCount (spanMask lane offset length) = length := by
  have mapped : maskCount (spanMask lane offset length) =
      ((List.range 64).map (laneMap lane)).countP
        (fun q => decide (offset ≤ q) && decide (q < offset + length)) := by
    rw [List.countP_map]
    simp only [maskCount, spanMask, vecOf, List.countP_map]
    rfl
  rw [mapped, (laneMap_perm lane).countP_eq, countP_range_span]
  omega

/-- A written byte stands at its mapped position of the image (R7). -/
theorem lineByte_writeImage (lane : LaneOrder) (offset : Nat) (data : List Byte) (image i : Nat)
    (hi : i < data.length) (h : offset + data.length ≤ 64) :
    lineByte (writeImage lane offset data image) (laneMap lane (offset + i)) = data.getD i 0 := by
  have inside : laneMap lane (offset + i) < 64 := laneMap_lt lane _ (by omega)
  rw [lineByte_of_lt _ _ inside, writeImage, vecOf_getElem,
    if_pos ((inSpan_iff_mapped ..).2 ⟨i, hi, rfl⟩), laneMap_laneMap, Nat.add_sub_cancel_left]

/-- A read of a written span gives the written bytes in order (R7, R8). -/
theorem spanData_writeImage (lane : LaneOrder) (offset : Nat) (data : List Byte) (image : Nat)
    (h : offset + data.length ≤ 64) :
    spanData lane offset data.length (writeImage lane offset data image) = data := by
  refine List.ext_getElem (by simp [spanData]) fun i _ hi => ?_
  simp [spanData, lineByte_writeImage lane offset data image i hi h, hi]

/-- Settles O24: each lane map is an involution of the line's 64 positions. -/
theorem laneOrderRoundTrip : Obligations.LaneOrderRoundTrip := by
  refine ⟨laneMap_table, fun lane offset length q _ => ?_,
    fun lane p hp => ⟨laneMap_lt lane p hp, laneMap_laneMap lane p⟩,
    maskCount_spanMask, spanData_writeImage⟩
  rw [Fin.getElem_fin, spanMask_getElem, inSpan_iff_mapped]

/-! ## Window bytes and validity -/

/-- Validity in the words of R3, conditions 1 to 7. -/
theorem WindowFields.valid_iff (f : WindowFields) : f.valid = true ↔
    f.sizeCode ≤ 27 ∧ (4096 * 2 ^ f.sizeCode) ∣ f.base.toNat ∧
      (4096 * 2 ^ f.sizeCode) ∣ f.targetBase.toNat ∧
      f.base.toNat + 4096 * 2 ^ f.sizeCode ≤ 2 ^ 40 ∧
      f.targetBase.toNat + 4096 * 2 ^ f.sizeCode ≤ 2 ^ 40 ∧ f.depth ≤ 4 ∧
      ¬ (f.order = .strict ∧ 0 < f.depth) := by
  simp only [WindowFields.valid, Bool.and_eq_true, decide_eq_true_eq, Bool.not_eq_true',
    ← Bool.not_eq_true, and_assoc]
  simp only [WindowFields.size, Nat.dvd_iff_mod_eq_zero]

theorem accessOf_eq_some (b : Byte) (x : WriteAccess) : accessOf b = some x ↔ b = x.code := by
  cases x <;> revert b <;> decide +kernel

theorem orderOf_eq_some (b : Byte) (x : ReadOrder) : orderOf b = some x ↔ b = x.code := by
  cases x <;> revert b <;> decide +kernel

theorem laneOf_eq_some (b : Byte) (x : LaneOrder) : laneOf b = some x ↔ b = x.code := by
  cases x <;> revert b <;> decide +kernel

theorem retryOf_eq_some (b : Byte) (x : RetryLimit) : retryOf b = some x ↔ b = x.code := by
  cases x <;> revert b <;> decide +kernel

theorem faultOf_eq_some (b : Byte) (x : FaultAction) : faultOf b = some x ↔ b = x.code := by
  cases x <;> revert b <;> decide +kernel

theorem modeOf_eq_some (b : Byte) (x : CatchMode) : modeOf b = some x ↔ b = x.code := by
  cases x <;> revert b <;> decide +kernel

/-- Window bytes give a record exactly when they are its bytes and it is valid (R3). -/
theorem windowFieldsOf_eq_some (b : WindowBytes) (f : WindowFields) :
    windowFieldsOf b = some f ↔
      f.valid = true ∧ f.base = b.base ∧ f.targetBase = b.targetBase ∧
        f.sizeCode = b.sizeCode.toNat ∧ f.depth = b.depth.toNat ∧
        b.writeAccess = f.access.code ∧ b.readOrder = f.order.code ∧
        b.laneOrder = f.lane.code ∧ b.retryCode = f.retry.code ∧
        b.faultAction = f.fault.code := by
  constructor
  · intro h
    have valid := windowFieldsOf_valid h
    unfold windowFieldsOf at h
    split at h
    · rename_i access order lane retry fault
      dsimp only at h
      split at h
      · cases h
        exact ⟨valid, rfl, rfl, rfl, rfl, (accessOf_eq_some ..).1 access,
          (orderOf_eq_some ..).1 order, (laneOf_eq_some ..).1 lane, (retryOf_eq_some ..).1 retry,
          (faultOf_eq_some ..).1 fault⟩
      · cases h
    · cases h
  · obtain ⟨base, sizeCode, targetBase, access, order, depth, lane, retry, fault⟩ := f
    rintro ⟨valid, rfl, rfl, rfl, rfl, access_code, order_code, lane_code, retry_code, fault_code⟩
    unfold windowFieldsOf
    rw [(accessOf_eq_some ..).2 access_code, (orderOf_eq_some ..).2 order_code,
      (laneOf_eq_some ..).2 lane_code, (retryOf_eq_some ..).2 retry_code,
      (faultOf_eq_some ..).2 fault_code]
    exact if_pos valid

theorem maskOf_eq_some (b : Byte) (m : AlertMask) : maskOf b = some m ↔
    b.toNat < 8 ∧ m.log = b.getLsbD 0 ∧ m.freeze = b.getLsbD 1 ∧ m.port = b.getLsbD 2 := by
  obtain ⟨log, freeze, port⟩ := m
  simp only [maskOf, Option.ite_none_right_eq_some, Option.some.injEq, AlertMask.mk.injEq]
  simp only [eq_comm]

/-- Parameter bytes give parameters exactly when they are their bytes and each is in its range (R173). -/
theorem paramsOf_eq_some (b : ParamBytes) (p : Params) : paramsOf b = some p ↔
    1 ≤ p.responseTimeout ∧ 1 ≤ p.backoff ∧ 1 ≤ p.idle ∧ 8 ≤ p.highWater ∧ p.highWater ≤ 32 ∧
      1 ≤ p.writeA ∧ p.writeA ≤ 31 ∧ 1 ≤ p.requestA ∧ p.requestA ≤ 15 ∧
      p.responseTimeout = b.responseTimeout.toNat ∧ p.backoff = b.backoff.toNat ∧
      p.idle = b.idle.toNat ∧ p.highWater = b.highWater.toNat ∧ p.writeA = b.writeA.toNat ∧
      p.requestA = b.requestA.toNat := by
  have widths : b.responseTimeout.toNat ≤ 65535 ∧ b.backoff.toNat ≤ 255 ∧ b.idle.toNat ≤ 255 := by
    omega
  obtain ⟨timeout_le, backoff_le, idle_le⟩ := widths
  obtain ⟨timeout, backoff, idle, highWater, writeA, requestA⟩ := p
  simp only [paramsOf, Params.valid, Option.ite_none_right_eq_some, Option.some.injEq,
    Params.mk.injEq, Bool.and_eq_true, decide_eq_true_eq]
  constructor
  · rintro ⟨range, rfl, rfl, rfl, rfl, rfl, rfl⟩
    omega
  · rintro ⟨_, _, _, _, _, _, _, _, _, rfl, rfl, rfl, rfl, rfl, rfl⟩
    omega

/-- An image window record is valid window bytes and a byte 17 of DISABLED or ENABLED (R187, R188). -/
theorem imageWindow_eq_some (bytes : List Byte) (i : Nat) (w : Window) :
    imageWindow bytes i = some w ↔
      windowFieldsOf (windowBytesAt bytes i) = some w.fields ∧ w.dropCount = 0 ∧
        ((byteAt bytes (i + 17) = 0 ∧ w.state = .disabled) ∨
          (byteAt bytes (i + 17) = 1 ∧ w.state = .enabled)) := by
  obtain ⟨state, fields, dropCount⟩ := w
  constructor
  · intro h
    unfold imageWindow at h
    split at h
    · rename_i read code
      cases h
      exact ⟨read, rfl, .inl ⟨BitVec.eq_of_toNat_eq code, rfl⟩⟩
    · rename_i read code
      cases h
      exact ⟨read, rfl, .inr ⟨BitVec.eq_of_toNat_eq code, rfl⟩⟩
    · cases h
  · rintro ⟨read, rfl, ⟨code, rfl⟩ | ⟨code, rfl⟩⟩ <;>
      (unfold imageWindow; rw [read, code]; rfl)

/-- Settles O43: every reader of configuration bytes gives a value exactly for that value's bytes. -/
theorem configurationBytesReadWhole : Obligations.ConfigurationBytesReadWhole :=
  ⟨windowFieldsOf_eq_some, WindowFields.valid_iff, ⟨rfl, rfl, rfl, rfl, rfl, rfl, rfl⟩,
    modeOf_eq_some, retryOf_eq_some, maskOf_eq_some, paramsOf_eq_some,
    fun bytes i => ⟨rfl, rfl, imageWindow_eq_some bytes i⟩⟩

/-! ## Matching and translation -/

/-- The first window with a property is the one that has it while no lower-numbered one does. -/
theorem find?_allWindows (f : WindowId → Bool) (n : WindowId) :
    allWindows.find? f = some n ↔ f n = true ∧ ∀ m, m < n → f m = false := by
  have rise : allWindows.Pairwise (· < ·) := by decide
  constructor
  · intro h
    refine ⟨List.find?_some h, fun m hm => ?_⟩
    obtain ⟨_, before, after, split_at, none_before⟩ := List.find?_eq_some_iff_append.1 h
    have place : m ∈ before ++ n :: after := split_at ▸ mem_allWindows m
    rw [split_at, List.pairwise_append, List.pairwise_cons] at rise
    obtain ⟨_, ⟨above, _⟩, _⟩ := rise
    rcases List.mem_append.1 place with hb | ha
    · simpa using none_before m hb
    · rcases List.mem_cons.1 ha with rfl | ha
      · exact absurd hm (lt_irrefl _)
      · exact absurd hm (lt_asymm (above m ha))
  · rintro ⟨hn, lower⟩
    exact find?_eq_lowest allWindows f n (mem_allWindows n) rise hn lower

/-- A window that is not DISABLED and whose range holds the address (R4). -/
def WindowTable.takes (t : WindowTable) (a : Addr) (n : WindowId) : Bool :=
  !decide (t.windows[n].state = .disabled) && t.windows[n].fields.covers a

theorem WindowTable.takes_iff (t : WindowTable) (a : Addr) (n : WindowId) :
    t.takes a n = true ↔ t.windows[n].state ≠ .disabled ∧
      t.windows[n].fields.base.toNat ≤ a.toNat ∧
      a.toNat < t.windows[n].fields.base.toNat + 4096 * 2 ^ t.windows[n].fields.sizeCode := by
  simp only [WindowTable.takes, WindowFields.covers, Bool.and_eq_true, Bool.not_eq_true',
    decide_eq_false_iff_not, decide_eq_true_eq]
  rfl

/-- The match is the first window that takes the address, if there is one (R4). -/
theorem WindowTable.matching_eq (t : WindowTable) (a : Addr) :
    t.matching a = ((allWindows.find? (t.takes a)).map WindowRef.window).getD .catchAll := by
  unfold WindowTable.matching WindowTable.takes
  split <;> rename_i h <;> rw [h] <;> rfl

theorem WindowTable.matching_eq_window (t : WindowTable) (a : Addr) (n : WindowId) :
    t.matching a = .window n ↔ t.takes a n = true ∧ ∀ m, m < n → t.takes a m = false := by
  rw [← find?_allWindows, t.matching_eq]
  cases allWindows.find? (t.takes a) <;> simp

theorem WindowTable.matching_eq_catchAll (t : WindowTable) (a : Addr) :
    t.matching a = .catchAll ↔ ∀ n, t.takes a n = false := by
  have none_iff : allWindows.find? (t.takes a) = none ↔ ∀ n, t.takes a n = false := by
    rw [List.find?_eq_none]
    exact ⟨fun h n => by simpa using h n (mem_allWindows n), fun h n _ => by simp [h n]⟩
  rw [← none_iff, t.matching_eq]
  cases allWindows.find? (t.takes a) <;> simp

/-- The catch-all keeps the address (R2). -/
theorem WindowTable.translate_catchAll (t : WindowTable) (a : Addr) :
    (t.policy .catchAll).translate a = a := by
  simp [WindowTable.policy, WindowFields.translate]

/-- A line address is the address less its offset (R6). -/
theorem lineOf_toNat (a : Addr) : (lineOf a).toNat = a.toNat - a.toNat % 64 := by
  have shifted : lineOf a = (a >>> 6) <<< 6 := by
    ext i hi
    have bit : ∀ j, (hj : j < 40) → (~~~(63 : Addr))[j] = !decide (j < 6) := by decide
    rw [lineOf, BitVec.getElem_and, bit i hi, BitVec.getElem_shiftLeft, BitVec.getElem_ushiftRight]
    by_cases low : i < 6
    · simp [low]
    · simp [low, show 6 + (i - 6) = i by omega, BitVec.getLsbD_eq_getElem hi]
  rw [shifted, BitVec.toNat_shiftLeft, BitVec.toNat_ushiftRight, Nat.shiftLeft_eq,
    Nat.shiftRight_eq_div_pow]
  omega

/-- What a valid window's ranges are to the lines they are made of (R3). -/
theorem WindowFields.lines_of_valid {f : WindowFields} (h : f.valid = true) :
    f.size % 64 = 0 ∧ f.base.toNat % 64 = 0 ∧ f.targetBase.toNat % 64 = 0 ∧
      f.base.toNat + f.size ≤ 2 ^ 40 ∧ f.targetBase.toNat + f.size ≤ 2 ^ 40 := by
  obtain ⟨_, base_dvd, target_dvd, base_le, target_le, _⟩ := f.valid_iff.1 h
  have size_dvd : 64 ∣ 4096 * 2 ^ f.sizeCode := Dvd.dvd.mul_right (by decide) _
  exact ⟨Nat.mod_eq_zero_of_dvd size_dvd, Nat.mod_eq_zero_of_dvd (size_dvd.trans base_dvd),
    Nat.mod_eq_zero_of_dvd (size_dvd.trans target_dvd), base_le, target_le⟩

theorem WindowFields.covers_iff (f : WindowFields) (a : Addr) :
    f.covers a = true ↔ f.base.toNat ≤ a.toNat ∧ a.toNat < f.base.toNat + f.size := by
  simp [WindowFields.covers]

/-- Translation in a valid window adds the offset in the window to the target base (R6). -/
theorem WindowFields.translate_toNat {f : WindowFields} {a : Addr} (valid : f.valid = true)
    (covers : f.covers a = true) :
    (f.translate a).toNat = f.targetBase.toNat + (a.toNat - f.base.toNat) := by
  obtain ⟨_, _, _, _, target_le⟩ := WindowFields.lines_of_valid valid
  obtain ⟨lower, upper⟩ := (f.covers_iff a).1 covers
  rw [WindowFields.translate, BitVec.toNat_add, BitVec.toNat_sub_of_le (BitVec.le_def.2 lower)]
  omega

/-- Settles O23: matching is the first window of a rising list, and a valid window's ranges are whole lines
within 2^40. -/
theorem windowMatchesAndTranslates : Obligations.WindowMatchesAndTranslates := by
  refine ⟨fun t a => ⟨fun n => ?_, ?_, t.translate_catchAll a⟩, fun f a valid covers => ?_⟩
  · simp only [t.matching_eq_window, ← Bool.not_eq_true, t.takes_iff]
  · simp only [t.matching_eq_catchAll, ← Bool.not_eq_true, t.takes_iff]
  · obtain ⟨size_mod, base_mod, target_mod, _, _⟩ := WindowFields.lines_of_valid valid
    obtain ⟨lower, upper⟩ := (f.covers_iff a).1 covers
    have target := WindowFields.translate_toNat valid covers
    have inside : (f.translate a).toNat < f.targetBase.toNat + f.size := by omega
    have offset : (f.translate a).toNat % 64 = a.toNat % 64 := by omega
    refine ⟨target, inside, offset, by rw [lineOf_toNat, offset], fun b hb => ?_⟩
    rw [f.covers_iff]
    omega

end Sys2Proof.Machine
end

section
/-! SUPPORT. Requests that pass steps 1 to 3 of R134: what a READ and a WRITE become (O13, O20, O21). -/

namespace Sys2Proof.Machine

/-! ## Steps 1 to 3 -/

/-- A REQUEST command is the arrival of its request (R134). -/
theorem exec_of_requestOf {i : Instr} {p : PortId} {r : Request} (s : State)
    (h : requestOf i = some (p, r)) : exec i s = s.take (s.requestArrives p r) := by
  unfold requestOf at h
  split at h <;> cases h <;> rfl

/-- Passing steps 1 to 3: the form is good, no needed credit is missing, no live entry holds the tag. -/
theorem State.refusal_eq_none {s : State} {p : PortId} {r : Request} (h : s.refusal p r = none) :
    r.formError = none ∧
      ¬ ((r.needsWrite = true ∧ (s.port p).writeHeld = 0) ∨
        (r.needsRequest = true ∧ (s.port p).requestHeld = 0)) ∧
      ¬ ∃ e ∈ s.tracker, e.port = p ∧ r.tag? = some e.tag := by
  unfold State.refusal at h
  split at h
  · cases h
  · rename_i form
    split at h
    · cases h
    · rename_i credit
      split at h
      · cases h
      · rename_i tag
        exact ⟨form, credit, tag⟩

theorem Request.overruns_iff (r : Request) (port : Port) : r.overruns port = true ↔
    (r.needsWrite = true ∧ port.writeHeld = 0) ∨
      (r.needsRequest = true ∧ port.requestHeld = 0) := by
  simp [Request.overruns]

theorem State.duplicateTag_iff (s : State) (p : PortId) (r : Request) :
    s.duplicateTag p r = true ↔ ∃ e ∈ s.tracker, e.port = p ∧ r.tag? = some e.tag := by
  unfold State.duplicateTag State.tagHeld
  split
  · rename_i tag
    simp [tag]
  · rename_i t tag
    simp only [tag, List.any_eq_true, decide_eq_true_eq, Option.some.injEq, @eq_comm _ t]

/-- A request that passes steps 1 to 3 spends its credits and is handed off (R136, R138). -/
theorem exec_of_admits {s : State} {i : Instr} {p : PortId} {r : Request} (h : s.admits i p r) :
    exec i s = .next ((s.setPort p ((s.port p).spent r)).handOff p r).settle := by
  obtain ⟨awake, request, active, refusal⟩ := h
  obtain ⟨form, credit, tag⟩ := State.refusal_eq_none refusal
  have arrives : s.requestArrives p r = some ((s.setPort p ((s.port p).spent r)).handOff p r) := by
    unfold State.requestArrives State.handOver
    rw [if_pos active, form, if_neg (by rwa [Request.overruns_iff])]
    dsimp only
    rw [if_neg (by rwa [State.duplicateTag_iff, State.setPort_tracker])]
    rfl
  rw [exec_of_requestOf s request, arrives, State.take_some _ _ awake]

/-! ## New entries -/

/-- In a sound acceptance order the places of the tracker lie before the next one (R47). -/
theorem State.tracker_lt_of_orderSound {s : State} (h : s.orderSound = true) :
    ∀ e ∈ s.tracker, e.place < s.nextPlace := by
  simp only [State.orderSound, Bool.and_eq_true, List.all_eq_true, decide_eq_true_eq] at h
  obtain ⟨⟨_, tracker⟩, _⟩ := h
  intro e he
  refine tracker e he e.place ?_
  unfold Entry.places
  split <;> simp

theorem setEntryState_append_new {tracker : List Entry} {e : Entry} (state : EntryState)
    (new : ∀ x ∈ tracker, x.place ≠ e.place) :
    setEntryState (tracker ++ [e]) e.place state = tracker ++ [{ e with state := state }] := by
  have old : tracker.map (fun x => if x.place = e.place then { x with state := state } else x) =
      tracker := by
    conv_rhs => rw [← List.map_id tracker]
    exact List.map_congr_left fun x hx => if_neg (new x hx)
  rw [setEntryState, List.map_append, old, List.map_singleton, if_pos rfl]

@[simp] theorem State.addEntry_port (s : State) (e : Entry) (p : PortId) :
    (s.addEntry e).port p = s.port p := by
  cases p <;> rfl

/-- An entry that is DONE as soon as it joins the tracker ends its port's list (R63). -/
theorem State.finish_addEntry {s : State} {e : Entry} (status : Status) (data : List Byte)
    (new : ∀ x ∈ s.tracker, x.place ≠ e.place) :
    (s.addEntry e).finish e.place status data =
      s.joinedDone { e with state := .done status data } := by
  have found : (s.addEntry e).entryAt e.place = some e := by
    rw [State.entryAt, State.addEntry_tracker, List.find?_append,
      List.find?_eq_none.2 fun x hx => by simpa using new x hx]
    simp
  rw [State.finish_eq status data found, State.addEntry_tracker, setEntryState_append_new _ new,
    State.addEntry_port]
  rfl

/-! ## READ -/

@[simp] theorem State.setPort_readEntry (s : State) (q : PortId) (x : Port) (p : PortId)
    (tag : Byte) (a : Addr) (n : Nat) (horizon : List Nat) (state : EntryState) :
    (s.setPort q x).readEntry p tag a n horizon state =
      s.readEntry p tag a n horizon state := by
  cases q <;> rfl

@[simp] theorem State.setPort_queuedPlaces (s : State) (q : PortId) (x : Port) :
    (s.setPort q x).queuedPlaces = s.queuedPlaces := by
  cases q <;> rfl

@[simp] theorem State.setPort_firstState (s : State) (q : PortId) (x : Port) (e : Entry) :
    (s.setPort q x).firstState e = s.firstState e := by
  cases q <;> rfl

/-- A READ that falls to the catch-all in REJECT mode is DONE with UNMAPPED (R9). -/
theorem State.handOffRead_unmapped {s : State} {p : PortId} {tag n : Byte} {a : Addr}
    (new : ∀ e ∈ s.tracker, e.place < s.nextPlace) (falls : s.table.matching a = .catchAll)
    (mode : s.table.catchAll.mode = .reject) :
    s.handOffRead p tag a n = s.joinedDone (s.readEntry p tag a n.toNat [] (.done .unmapped [])) := by
  have done := State.finish_addEntry (s := s) (e := s.readEntry p tag a n.toNat [] .orderWait)
    .unmapped [] fun x hx => Nat.ne_of_lt (new x hx)
  unfold State.handOffRead
  dsimp only
  unfold State.readEntry at done ⊢
  rw [falls] at done ⊢
  dsimp only
  rw [mode]
  exact done

/-- The weighing of a tracker whose other reads are weighed weighs its new read (R52). -/
theorem State.addEntry_weighReads {s : State} {e : Entry} {r : ReadFields}
    (weighed : ∀ x ∈ s.tracker, weighEntry s.queue s.memPort.orphanedWriteLines x = x)
    (kind : e.kind = .read r) (state : e.state = .orderWait) :
    (s.addEntry e).weighReads = s.joined { e with state := s.firstState e } := by
  have old : s.tracker.map (weighEntry s.queue s.memPort.orphanedWriteLines) = s.tracker := by
    conv_rhs => rw [← List.map_id s.tracker]
    exact List.map_congr_left weighed
  have new : weighEntry s.queue s.memPort.orphanedWriteLines e =
      { e with state := s.firstState e } := by
    unfold weighEntry State.firstState
    rw [kind, state]
    dsimp only
    split
    · rfl
    · rw [← state, ← kind]
  unfold State.weighReads State.joined
  rw [State.addEntry_queue, State.addEntry_memPort, State.addEntry_tracker, List.map_append, old,
    List.map_singleton, new]
  rfl

/-- A demand read joins the tracker with a horizon of every queued record (R49 to R52). -/
theorem State.handOffRead_demand {s : State} {p : PortId} {tag n : Byte} {a : Addr}
    (weighed : ∀ x ∈ s.tracker, weighEntry s.queue s.memPort.orphanedWriteLines x = x)
    (demand : (s.table.matching a = .catchAll ∧ s.table.catchAll.mode = .pass) ∨
      ∃ w, s.table.matching a = .window w ∧ s.table.windows[w].fields.depth = 0) :
    s.handOffRead p tag a n = s.joined (s.readEntry p tag a n.toNat s.queuedPlaces
      (s.firstState (s.readEntry p tag a n.toNat s.queuedPlaces .orderWait))) := by
  have joins := State.addEntry_weighReads
    (e := s.readEntry p tag a n.toNat s.queuedPlaces .orderWait) weighed rfl rfl
  have demanded : s.handOffRead p tag a n =
      s.readDemand p tag (s.table.readFields (s.table.matching a) a n.toNat []) := by
    unfold State.handOffRead
    rcases demand with ⟨falls, mode⟩ | ⟨w, matched, depth⟩
    · rw [falls]
      dsimp only
      rw [mode]
    · rw [matched]
      dsimp only
      rw [if_neg (by omega)]
  rw [demanded]
  exact joins

/-- Settles O13: the admitted READ is handed off, and both hand-offs add one entry. -/
theorem readBecomesEntry : Obligations.ReadBecomesEntry := by
  intro s p rest tag a n weighed _ admits
  simp only [State.readsWeighed, Bool.and_eq_true, List.all_eq_true, decide_eq_true_eq] at weighed
  obtain ⟨ordered, weighed⟩ := weighed
  rw [exec_of_admits admits]
  refine ⟨fun falls mode => ?_, fun demand => ?_⟩
  · rw [State.handOff, State.handOffRead_unmapped
      (by simpa using State.tracker_lt_of_orderSound ordered) (by simpa using falls)
      (by simpa using mode), State.setPort_readEntry]
  · rw [State.handOff, State.handOffRead_demand (by simpa using weighed) (by simpa using demand),
      State.setPort_readEntry, State.setPort_readEntry, State.setPort_queuedPlaces,
      State.setPort_firstState]

/-! ## WRITE -/

/-- The form of an admitted WRITE (R135). -/
theorem Request.write_form {ack : Bool} {tag n : Byte} {a : Addr} {data : List LinkByte}
    (h : (Request.write ack tag a n data).formError = none) :
    data.length = n.toNat ∧ offsetOf a + n.toNat ≤ 64 := by
  unfold Request.formError at h
  dsimp only at h
  split at h
  · cases h
  split at h
  · cases h
  split at h
  · cases h
  · omega

@[simp] theorem State.setPort_newRecord (s : State) (q : PortId) (x : Port) (p : PortId)
    (ref : WindowRef) (ack : Bool) (tag : Byte) (a : Addr) (data : List LinkByte) :
    (s.setPort q x).newRecord p ref ack tag a data = s.newRecord p ref ack tag a data := by
  cases q <;> rfl

@[simp] theorem State.setPort_fetchEnv (s : State) (q : PortId) (x : Port) :
    (s.setPort q x).fetchEnv = s.fetchEnv := by
  cases q <;> rfl

theorem State.takePlace_eq (s : State) (p : PortId) (ack : Bool) (tag : Byte) :
    s.takePlace p ack tag = { s with
      tracker := s.tracker ++
        (if ack then
          [{ place := s.nextPlace, port := p, tag := tag, kind := .ackedWrite, state := .queued }]
        else [])
      nextPlace := s.nextPlace + 1 } := by
  cases ack with
  | true => rfl
  | false => simp [State.takePlace]

theorem State.logParity_eq (s : State) (r : WriteRecord) :
    s.logParity r = { s with
      log :=
        if r.poison = true ∧ r.ackTag = none then
          s.log.append { time := s.startUp.counter,
                         event := .writeParity r.port r.window r.line r.length none }
        else s.log } := by
  unfold State.logParity
  split <;> rfl

/-- The invalidation sees the new record in the queue (R26, R86). -/
theorem State.enqueue_eq (s : State) (r : WriteRecord) :
    s.enqueue r = { s with
      queue := s.queue ++ [r]
      images := s.images + 1
      readAhead := s.readAhead.invalidate
        { s.fetchEnv with queued := s.queuedPlaces ++ [r.place] } r.line } := by
  simp [State.enqueue, State.fetchEnv, State.queuedPlaces]

/-- The state an accepted WRITE leaves (R23 to R26). -/
theorem State.acceptWrite_eq (s : State) (p : PortId) (ref : WindowRef) (ack : Bool) (tag : Byte)
    (a : Addr) (data : List LinkByte) :
    s.acceptWrite p ref ack tag a data =
      { s with
        queue := s.queue ++ [s.newRecord p ref ack tag a data]
        tracker := s.tracker ++
          (if ack then
            [{ place := s.nextPlace, port := p, tag := tag, kind := .ackedWrite,
               state := .queued }]
          else [])
        nextPlace := s.nextPlace + 1
        images := s.images + 1
        log :=
          if (s.newRecord p ref ack tag a data).poison = true ∧ ack = false then
            s.log.append
              { time := s.startUp.counter,
                event := .writeParity p ref (s.newRecord p ref ack tag a data).line
                  (s.newRecord p ref ack tag a data).length none }
          else s.log
        readAhead := s.readAhead.invalidate
          { s.fetchEnv with queued := s.queuedPlaces ++ [s.nextPlace] }
          (s.newRecord p ref ack tag a data).line } := by
  have posted : (s.newRecord p ref ack tag a data).ackTag = none ↔ ack = false := by
    cases ack <;> simp [State.newRecord]
  unfold State.acceptWrite
  dsimp only
  rw [State.takePlace_eq, State.logParity_eq, State.enqueue_eq]
  simp only [posted]
  rfl

/-- Settles O20: the record is `State.newRecord`, its bytes standing where the lane order maps them. -/
theorem writeJoinsQueue : Obligations.WriteJoinsQueue := by
  intro s p rest ack tag a n data _ admits accepts ref f
  obtain ⟨length, fits⟩ : data.length = n.toNat ∧ offsetOf a + n.toNat ≤ 64 := by
    obtain ⟨_, _, _, refusal⟩ := admits
    exact Request.write_form (State.refusal_eq_none refusal).1
  refine ⟨s.newRecord p ref ack tag a data, rfl, rfl, rfl, rfl, ?_, fun i hi => ?_, rfl, rfl, rfl,
    rfl, rfl, rfl, rfl, ?_⟩
  · rw [← length]
    rfl
  · refine lineByte_writeImage f.lane (offsetOf a) (data.map LinkByte.data) s.images i ?_ ?_ <;>
      rw [List.length_map] <;> omega
  · have handed : (s.setPort p ((s.port p).spent (.write ack tag a n data))).handOff p
        (.write ack tag a n data) =
        (s.setPort p ((s.port p).spent (.write ack tag a n data))).acceptWrite p ref ack tag a
          data := by
      rw [State.handOff, State.handOffWrite, State.setPort_table, accepts]
    rw [exec_of_admits admits, handed, State.acceptWrite_eq]
    simp only [State.setPort_newRecord, State.setPort_queue, State.setPort_tracker,
      State.setPort_nextPlace, State.setPort_images, State.setPort_log, State.setPort_startUp,
      State.setPort_readAhead, State.setPort_fetchEnv, State.setPort_queuedPlaces]

/-- An acked WRITE that is turned away is DONE with its status (R9, R10). -/
theorem State.refuseWrite_eq {s : State} {p : PortId} {tag : Byte} {status : Status}
    (new : ∀ e ∈ s.tracker, e.place < s.nextPlace) :
    s.refuseWrite p tag status = (s.oweWrite p).joinedDone
      { place := s.nextPlace, port := p, tag := tag, kind := .ackedWrite,
        state := .done status [] } := by
  have done := State.finish_addEntry (s := s.oweWrite p)
    (e := { place := (s.oweWrite p).nextPlace, port := p, tag := tag, kind := .ackedWrite,
            state := .queued }) status []
    (by simpa using fun x hx => Nat.ne_of_lt (new x hx))
  rw [State.oweWrite_nextPlace] at done
  rw [State.refuseWrite, State.addAckedWrite, State.oweWrite_nextPlace]
  exact done

theorem WindowTable.writeRefusal_catchAll (t : WindowTable) :
    t.writeRefusal .catchAll = (if t.catchAll.mode = .reject then some .unmapped else none) := by
  unfold WindowTable.writeRefusal
  cases t.catchAll.mode <;> rfl

theorem WindowTable.writeRefusal_enabled {t : WindowTable} {n : WindowId}
    (h : t.windows[n].state = .enabled) :
    t.writeRefusal (.window n) =
      (if t.windows[n].fields.access = .readOnly then some .readOnly else none) := by
  simp only [WindowTable.writeRefusal]
  rw [h]
  cases t.windows[n].fields.access <;> rfl

/-- Settles O21: the write is refused or dropped at the hand-off, and a drop counts one record. -/
theorem writeTurnedAway : Obligations.WriteTurnedAway := by
  refine ⟨fun s p rest ack tag a n data status ordered _ admits away => ?_, fun t => ?_⟩
  · intro spent
    have handed : (s.setPort p spent).handOff p (.write ack tag a n data) =
        if ack then (s.setPort p spent).refuseWrite p tag status
        else (s.setPort p spent).dropWrite p (s.table.matching a) := by
      rw [State.handOff, State.handOffWrite, State.setPort_table, away]
    rw [exec_of_admits admits, handed]
    cases ack with
    | true =>
      rw [if_pos rfl, if_pos rfl,
        State.refuseWrite_eq (by simpa using State.tracker_lt_of_orderSound ordered),
        State.oweWrite, State.setPort_port_same, State.setPort_setPort, State.setPort_nextPlace]
      rfl
    | false =>
      rw [if_neg Bool.false_ne_true, if_neg Bool.false_ne_true, State.dropWrite,
        State.setPort_port_same, State.setPort_table]
      cases p <;> rfl
  · refine ⟨t.writeRefusal_catchAll, rfl, rfl, fun n => ⟨WindowTable.writeRefusal_frozen,
      fun enabled access => ?_, fun enabled access => ?_, ?_, rfl, fun m hm => ?_⟩⟩
    · rw [WindowTable.writeRefusal_enabled enabled, if_pos access]
    · rw [WindowTable.writeRefusal_enabled enabled, if_neg (by rw [access]; nofun)]
    · rw [WindowTable.drop_window_windows, if_pos rfl]
      rfl
    · rw [WindowTable.drop_window_windows, if_neg hm]

end Sys2Proof.Machine
end

section
/-! SUPPORT. Responses of memory to the head record and to a demand read (O29, O32). -/

namespace Sys2Proof.Machine

theorem exec_response_awake {s : State} (message : List Byte) (awake : s.awake) :
    exec (.response message) s = .next (s.respond (parseResponse message)).settle :=
  State.take_some _ _ awake

/-- A response to a BUSY slot frees it and is given to its owner (R112, R113). -/
theorem State.respond_busy {s : State} {r : Response} {owner : SlotOwner} {line : Addr}
    {deadline : Timer} (h : s.memPort.slots[r.slot] = .busy owner line deadline) :
    s.respond r = (s.slotFreed r.slot).deliver owner r := by
  unfold State.respond
  rw [h]
  rfl

/-- A WAIT below the limit raises the count by 1, and an UNLIMITED count stops at 65535 (R30, R56). -/
theorem afterWait_tolerated {limit : RetryLimit} {count : Nat}
    (h : limit.bound = none ∨ ∃ b, limit.bound = some b ∧ count < b) :
    afterWait limit count =
      some (if limit = .unlimited then min (count + 1) 65535 else count + 1) := by
  unfold afterWait
  rcases h with unlimited | ⟨b, bound, below⟩
  · rw [unlimited]
    cases limit <;> cases unlimited
    rfl
  · rw [bound]
    dsimp only
    rw [if_pos below]
    cases limit <;> cases bound <;> rfl

/-! ## The head record -/

/-- Table 2-3 as the model makes it. -/
theorem State.headFails_eq (s : State) (head : WriteRecord) (rest : List WriteRecord)
    (cause : MemCause) : s.headFails head rest cause = s.headFailure head rest cause := by
  unfold State.headFails State.headFailure State.postedFails State.postedFreezes
  cases head.ackTag with
  | some tag => cases head.link <;> rfl
  | none =>
    unfold WindowTable.frozenBy
    cases head.window with
    | catchAll => cases head.link <;> rfl
    | window n =>
      dsimp only
      by_cases freezes : head.fault = .freeze ∧ s.table.windows[n].state = .enabled ∧
          s.table.windows[n].fields.fault = .freeze
      · rw [if_pos freezes, if_pos freezes]
        rfl
      · rw [if_neg freezes, if_neg freezes]

/-- A response to the head record's slot is delivered to the head record (R107). -/
theorem State.respond_head {s : State} {r : Response} {head : WriteRecord}
    {rest : List WriteRecord} {line : Addr} {deadline : Timer}
    (slot : s.memPort.slots[r.slot] = .busy (.write head.place) line deadline)
    (queue : s.queue = head :: rest) :
    s.respond r = (s.slotFreed r.slot).headAnswered head rest r.kind := by
  rw [State.respond_busy slot, State.deliver, State.writeAnswered, State.slotFreed,
    State.setSlot_queue, queue]
  exact if_pos rfl

/-- Settles O29: the response reaches the head record, which then succeeds, waits or fails. -/
theorem writeTakesResponse : Obligations.WriteTakesResponse := by
  intro s message head rest line deadline awake r slot queue f
  rw [exec_response_awake message awake, State.respond_head slot queue]
  refine ⟨fun ok => ?_, fun wait => ⟨fun limit bound spent => ?_, fun tolerated => ?_⟩, ?_⟩
  · rw [show (parseResponse message).kind = .ok from ok, State.headAnswered, State.headSucceeds]
    cases head.ackTag with
    | none => cases head.link <;> rfl
    | some tag =>
      cases head.link with
      | some place => rfl
      | none => cases head.poison <;> rfl
  · rw [show (parseResponse message).kind = .wait from wait, State.headAnswered, State.headWaits,
      afterWait_eq_none.2 ⟨limit, bound, spent⟩, ← State.headFails_eq]
  · rw [show (parseResponse message).kind = .wait from wait, State.headAnswered, State.headWaits,
      afterWait_tolerated tolerated]
    rfl
  · rw [← State.headFails_eq]
    rintro (fault | okPoison)
    · rw [show (parseResponse message).kind = .fault from fault]
      rfl
    · rw [show (parseResponse message).kind = .okPoison from okPoison]
      rfl

/-! ## Demand reads -/

/-- A strictly rising list holds no number twice. -/
theorem nodup_of_rising {places : List Nat} (h : rising places = true) : places.Nodup := by
  induction places with
  | nil => exact List.nodup_nil
  | cons n places ih =>
    simp only [rising, Bool.and_eq_true, List.all_eq_true, decide_eq_true_eq] at h
    obtain ⟨above, rest⟩ := h
    exact List.nodup_cons.2 ⟨fun hn => lt_irrefl n (above n hn), ih rest⟩

/-- In a sound acceptance order the entry at an entry's place is that entry. -/
theorem State.entryAt_of_orderSound {s : State} {e : Entry} (h : s.orderSound = true)
    (he : e ∈ s.tracker) : s.entryAt e.place = some e := by
  simp only [State.orderSound, Bool.and_eq_true] at h
  obtain ⟨⟨⟨⟨_, rise⟩, _⟩, _⟩, _⟩ := h
  exact State.entryAt_of_mem (nodup_of_rising rise) he

section Demand

variable {s : State} {e : Entry} {q : ReadFields}

theorem State.finish_eq_endsAs (found : s.entryAt e.place = some e) (status : Status)
    (data : List Byte) : s.finish e.place status data = s.endsAs e status data :=
  State.finish_eq status data found

/-- A demand read that is given a line is DONE with its span of it (R8, R55). -/
theorem State.readAnswered_data (found : s.entryAt e.place = some e) (kind : e.kind = .read q)
    {r : Response} {line : LineData} {poison : Bool} (data : r.data = some line)
    (told : r.kind = if poison then .okPoison else .ok) :
    s.readAnswered e.place r =
      s.endsAs e (readStatus poison) (spanData q.lane q.offset q.length line) := by
  have read : s.finishRead poison line e.place =
      s.endsAs e (readStatus poison) (spanData q.lane q.offset q.length line) := by
    rw [State.finishRead, found]
    dsimp only
    rw [State.finish_eq_endsAs found, Entry.dataFrom, kind]
  unfold State.readAnswered Response.effective
  rw [found]
  dsimp only
  rw [kind, told, data, ← read]
  cases poison <;> rfl

/-- A demand read that is told WAIT (R56). -/
theorem State.readAnswered_wait (found : s.entryAt e.place = some e) (kind : e.kind = .read q)
    {r : Response} (told : r.kind = .wait) :
    s.readAnswered e.place r = s.readWaits e q := by
  unfold State.readAnswered Response.effective
  rw [found]
  dsimp only
  rw [kind, told]

/-- A demand read that is told FAULT, or is given no data (R58, R111). -/
theorem State.readAnswered_fault (found : s.entryAt e.place = some e) (kind : e.kind = .read q)
    {r : Response} (told : r.kind = .fault ∨ (r.data = none ∧ r.kind ≠ .wait)) :
    s.readAnswered e.place r = s.endsAs e .memFault [] := by
  rw [← State.finish_eq_endsAs found]
  unfold State.readAnswered Response.effective
  rw [found]
  dsimp only
  rw [kind]
  rcases told with fault | ⟨absent, waits⟩
  · rw [fault]
  · rw [absent]
    cases told : r.kind with
    | wait => exact absurd told waits
    | _ => rfl

end Demand

/-- Settles O32: the response reaches the one entry of its place. -/
theorem demandReadTakesResponse : Obligations.DemandReadTakesResponse := by
  intro s message e q line deadline awake ordered r slot live kind f
  have found : f.entryAt e.place = some e := State.entryAt_of_orderSound ordered live
  have reached : exec (.response message) s = .next (f.readAnswered e.place r).settle := by
    rw [exec_response_awake message awake, State.respond_busy slot]
    rfl
  rw [reached]
  refine ⟨fun data given => ⟨fun ok => ?_, fun okPoison => ?_⟩,
    fun wait => ⟨fun limit bound spent => ?_, fun tolerated => ?_⟩, fun told => ?_⟩
  · rw [State.readAnswered_data (poison := false) found kind given ok]
    rfl
  · rw [State.readAnswered_data (poison := true) found kind given okPoison]
    rfl
  · rw [State.readAnswered_wait found kind wait, State.readWaits,
      afterWait_eq_none.2 ⟨limit, bound, spent⟩, ← State.finish_eq_endsAs found]
  · rw [State.readAnswered_wait found kind wait, State.readWaits, afterWait_tolerated tolerated]
    rfl
  · rw [State.readAnswered_fault found kind told]

end Sys2Proof.Machine
end

section
/-! SUPPORT. The power-on reset and the commands of the maintenance port on windows (O5, O42, O46). -/

namespace Sys2Proof.Machine

/-! ## Power-on reset -/

/-- What the part is in reset comes from its inputs and from what the model keeps beside it. -/
theorem State.heldInReset_congr {s s' : State} (pins : s'.pins = s.pins)
    (ports : ∀ p, (s'.port p).resetInput = (s.port p).resetInput ∧
      (s'.port p).linkReady = (s.port p).linkReady)
    (pending : s'.pending = s.pending) (images : s'.images = s.images) :
    s'.heldInReset = s.heldInReset := by
  obtain ⟨resetA, readyA⟩ := ports .a
  obtain ⟨resetB, readyB⟩ := ports .b
  rw [State.port_a, State.port_a] at resetA readyA
  rw [State.port_b, State.port_b] at resetB readyB
  simp only [State.heldInReset, State.powerOnValues, pins, resetA, readyA, resetB, readyB, pending,
    images]

theorem exec_powerOnResetAssert_awake {s : State} (awake : s.awake) :
    exec .powerOnResetAssert s = .next s.heldInReset :=
  if_neg (by rw [awake]; exact Bool.false_ne_true)

theorem exec_powerOnResetRelease_held {s : State} (held : s.pins.powerOnReset = true) :
    exec .powerOnResetRelease s = .next s.powerOnValues :=
  if_pos held

/-- Settles O5: the assertion leads to `State.heldInReset`, the release to `State.powerOnValues`. -/
theorem powerOnResetEndsAndStarts : Obligations.PowerOnResetEndsAndStarts := by
  refine ⟨fun s awake => ⟨s.heldInReset, exec_powerOnResetAssert_awake awake, rfl, rfl, rfl, rfl, rfl,
      rfl, rfl, fun p => ?_, rfl, fun s' pins ports pending images => ?_⟩,
    fun s held => ⟨s.powerOnValues, exec_powerOnResetRelease_held held, rfl, rfl,
      vecOf_getElem_fin 8 _, rfl, rfl, rfl, rfl, vecOf_getElem_fin 4 _, vecOf_getElem_fin 16 _,
      vecOf_getElem_fin 4 _, rfl, fun p => ?_, rfl, rfl, rfl, rfl, rfl⟩⟩
  · cases p <;> exact ⟨rfl, rfl⟩
  · rw [exec_powerOnResetAssert_awake (pins ▸ awake : s'.pins.powerOnReset = false),
      State.heldInReset_congr pins ports pending images]
  · cases p <;> rfl

/-! ## Weighing a command -/

section Answers

variable {s : State}

/-- In RECEIVING a command's effect is answered (R166, R167). -/
theorem State.takeCommand_answering (receiving : s.receiving) (i : Instr) (r : State × Answer) :
    s.takeCommand i r = r.1.answering i.commandPart r.2.bytes := by
  obtain ⟨awake, frame⟩ := receiving
  exact s.takeCommand_eq i r awake frame

/-- While RUNNING a command is answered with its own effect (R168). -/
theorem State.takeCommand_serving (serving : s.serving) (i : Instr) (r : State × Answer) :
    s.takeCommand i (s.whenRunning r) = r.1.answering i.commandPart r.2.bytes := by
  obtain ⟨receiving, running⟩ := serving
  rw [State.whenRunning_running s r running, State.takeCommand_answering receiving]

/-- A command on a window above 7 is answered BAD_ARG (R168). -/
theorem State.takeCommand_noWindow (serving : s.serving) (i : Instr) {n : Byte}
    (f : WindowId → State × Answer) (above : 8 ≤ n.toNat) :
    s.takeCommand i (s.whenRunning (s.withWindow n f)) = s.answering i.commandPart [0x02] := by
  rw [State.takeCommand_serving serving, State.withWindow, windowArg_of_le n above]
  rfl

/-- A command on a window is answered with its effect on that window. -/
theorem State.takeCommand_window (serving : s.serving) (i : Instr) {n : Byte} {w : WindowId}
    (f : WindowId → State × Answer) (names : n.toNat = w.val) :
    s.takeCommand i (s.whenRunning (s.withWindow n f)) =
      (f w).1.answering i.commandPart (f w).2.bytes := by
  rw [State.takeCommand_serving serving, State.withWindow, windowArg_of_lt n w names]

end Answers

/-- Every command with a command part but GET_STATUS and an unknown code waits for RUNNING (R168). -/
theorem exec_whenRunning (s : State) {i : Instr} (part : i.commandPart ≠ [])
    (status : i ≠ .getStatus) (known : ∀ code, i ≠ .unknownCommand code) :
    ∃ r, exec i s = s.takeCommand i (s.whenRunning r) := by
  cases i with
  | unknownCommand code => exact absurd rfl (known code)
  | getStatus => exact absurd rfl status
  | getWindow n => exact ⟨_, rfl⟩
  | setWindow n record => exact ⟨_, rfl⟩
  | enableWindow n => exact ⟨_, rfl⟩
  | disableWindow n => exact ⟨_, rfl⟩
  | thawWindow n => exact ⟨_, rfl⟩
  | getCatchall => exact ⟨_, rfl⟩
  | setCatchall mode retryCode => exact ⟨_, rfl⟩
  | getParams => exact ⟨_, rfl⟩
  | setParams params => exact ⟨_, rfl⟩
  | setAlertMask mask => exact ⟨_, rfl⟩
  | peekLog => exact ⟨_, rfl⟩
  | popLog => exact ⟨_, rfl⟩
  | clearOverflow => exact ⟨_, rfl⟩
  | reclaimSlots => exact ⟨_, rfl⟩
  | quiesce => exact ⟨_, rfl⟩
  | resume => exact ⟨_, rfl⟩
  | _ => exact absurd rfl part

/-! ## Arguments out of range -/

theorem modeOf_eq_none {b : Byte} (h : 2 ≤ b.toNat) : modeOf b = none := by
  cases hm : modeOf b with
  | none => rfl
  | some m =>
    rw [(modeOf_eq_some b m).1 hm] at h
    cases m <;> exact absurd h (by decide)

theorem retryOf_eq_none {b : Byte} (h : 4 ≤ b.toNat) : retryOf b = none := by
  cases hr : retryOf b with
  | none => rfl
  | some r =>
    rw [(retryOf_eq_some b r).1 hr] at h
    cases r <;> exact absurd h (by decide)

theorem maskOf_eq_none {b : Byte} (h : 8 ≤ b.toNat) : maskOf b = none :=
  if_neg (by omega)

/-- Parameter bytes with any value out of its range give no parameters (R173). -/
theorem paramsOf_eq_none {b : ParamBytes}
    (h : b.responseTimeout = 0 ∨ b.backoff = 0 ∨ b.idle = 0 ∨ b.highWater.toNat < 8 ∨
      32 < b.highWater.toNat ∨ b.writeA = 0 ∨ 31 < b.writeA.toNat ∨ b.requestA = 0 ∨
      15 < b.requestA.toNat) : paramsOf b = none := by
  cases hp : paramsOf b with
  | none => rfl
  | some p =>
    have range := (paramsOf_eq_some b p).1 hp
    bv_omega

/-- Settles O42: each weighing is one clause, and its answer leaves the state. -/
theorem commandsWeighedInOrder : Obligations.CommandsWeighedInOrder := by
  refine ⟨fun s code receiving unknown => ?_, fun s i receiving loading part status known => ?_,
    fun s serving => ⟨fun i n names above => ?_, fun n record bad => ?_,
      fun mode retryCode bad => ?_, fun params bad => ?_, fun mask bad => ?_⟩⟩
  · have unnamed : ¬ knownCode code = true := by simpa [Instr.wellFormed] using unknown
    rw [exec_unknownCommand, execUnknownCommand, if_neg unnamed,
      State.takeCommand_answering receiving]
    rfl
  · obtain ⟨r, hr⟩ := exec_whenRunning s part status known
    rw [hr, State.whenRunning_loading s r loading, State.takeCommand_answering receiving]
    rfl
  · cases i with
    | getWindow m => cases names; exact State.takeCommand_noWindow serving _ _ above
    | enableWindow m => cases names; exact State.takeCommand_noWindow serving _ _ above
    | disableWindow m => cases names; exact State.takeCommand_noWindow serving _ _ above
    | thawWindow m => cases names; exact State.takeCommand_noWindow serving _ _ above
    | _ => exact names.elim
  · rcases bad with above | invalid
    · exact State.takeCommand_noWindow serving _ _ above
    · rw [exec_setWindow, execSetWindow, State.takeCommand_serving serving, State.withWindow,
        invalid]
      split <;> rfl
  · rw [exec_setCatchall, execSetCatchall, State.takeCommand_serving serving]
    rcases bad with mode_above | retry_above
    · rw [modeOf_eq_none mode_above]
      rfl
    · rw [retryOf_eq_none retry_above]
      cases modeOf mode <;> rfl
  · rw [exec_setParams, execSetParams, State.takeCommand_serving serving, paramsOf_eq_none bad]
    rfl
  · rw [exec_setAlertMask, execSetAlertMask, State.takeCommand_serving serving,
      maskOf_eq_none bad]
    rfl

/-! ## Window commands by the window's state -/

/-- Settles O46: each command's effect, by the state of the window it names. -/
theorem windowCommandsMoveStates : Obligations.WindowCommandsMoveStates := by
  refine fun s serving => ⟨fun n w names => ?_, fun mode retryCode m limit mode_code retry_code => ?_,
    rfl, rfl⟩
  · dsimp only
    refine ⟨?_, ?_, ?_, fun record f valid => ?_⟩
    · rw [exec_enableWindow, execEnableWindow, State.takeCommand_window serving _ _ names,
        State.enableWindow]
      cases s.table.windows[w].state <;> rfl
    · rw [exec_disableWindow, execDisableWindow, State.takeCommand_window serving _ _ names,
        State.disableWindow]
      cases s.table.windows[w].state <;> rfl
    · rw [exec_thawWindow, execThawWindow, State.takeCommand_window serving _ _ names,
        State.thawWindow]
      cases s.table.windows[w].state <;> rfl
    · rw [exec_setWindow, execSetWindow, State.takeCommand_window serving _ _ names, valid]
      dsimp only
      rw [State.setWindow]
      split <;> rfl
  · rw [exec_setCatchall, execSetCatchall, State.takeCommand_serving serving,
      (modeOf_eq_some mode m).2 mode_code, (retryOf_eq_some retryCode limit).2 retry_code]
    rfl

end Sys2Proof.Machine
end

section
/-! SUPPORT. What one step can do, as a chain of moves that each keep the laws of Sys2Proof/Safety.lean (O55, O56, O57,
O59): the moves, and that every command is such a chain. -/

namespace Sys2Proof.Machine

/-! ## What no law reads -/

/-- A port at fixed values of its inputs, its drop flag and the kind of its last message. -/
def Port.bare (x : Port) : Port :=
  { x with resetInput := false, linkReady := false, dropFlag := false, lastSent := .completion }

/-- The part at fixed values of what no law on credits, orders, slots, pool and work reads. -/
def State.bare (s : State) : State :=
  { s with
    pins := { powerOnReset := false, warmReset := false, select := false }
    startUp :=
      { s.startUp with
        loadResult := .inProgress, counter := 0, mask := AlertMask.allEnabled, flash := Flash.idle }
    memPort := { s.memPort with lastRequest := [] }
    portA := s.portA.bare
    portB := s.portB.bare
    log := { records := [], overflow := 0 }
    alertLine := false
    maint := { frame := .idle, commandPart := [], response := [] }
    quiesce := .running
    pending := []
    images := 0 }

namespace State

variable (s : State)

@[simp] theorem logEvent_bare (e : LogEvent) : (s.logEvent e).bare = s.bare := rfl
@[simp] theorem setWarmInput_bare (level : Bool) : (s.setWarmInput level).bare = s.bare := rfl
@[simp] theorem setSelect_bare (level : Bool) : (s.setSelect level).bare = s.bare := rfl
@[simp] theorem driveAlert_bare : s.driveAlert.bare = s.bare := rfl
@[simp] theorem answered_bare (command : List Byte) (a : Answer) :
    (s.answered command a).bare = s.bare := rfl
@[simp] theorem setResetInput_bare (p : PortId) (level : Bool) :
    (s.setResetInput p level).bare = s.bare := by
  cases p <;> rfl
@[simp] theorem setLinkReady_bare (p : PortId) (level : Bool) :
    (s.setLinkReady p level).bare = s.bare := by
  cases p <;> rfl
@[simp] theorem weighQuiesce_bare : s.weighQuiesce.bare = s.bare := by
  unfold weighQuiesce
  split <;> rfl
@[simp] theorem settle_bare : s.settle.bare = s.bare := by
  rw [settle, driveAlert_bare, weighQuiesce_bare]
@[simp] theorem tick_bare : s.tick.bare = s.bare := by
  unfold tick
  split <;> rfl

end State

/-! ## The read-ahead unit -/

/-- One turn of the read-ahead unit on its own: a stream is retired, gives up its first lines, is opened, or
gets a new line (R75 to R79, R87). -/
inductive UnitMove (s : State) : ReadAhead → Prop
  | retired (k : StreamId) : UnitMove s (s.readAhead.retire k)
  | trimmed (k : StreamId) {st : Stream} (gone kept : List LineId) (next : Nat) (last : Time)
      (active : s.readAhead.streams[k] = some st) (owned : st.owned = gone ++ kept) :
      UnitMove s ((s.readAhead.releaseAll gone).setStream k
        (some { st with owned := kept, nextLine := next, lastUse := last }))
  | opened (k : StreamId) (st : Stream) (free : s.readAhead.streams[k] = none) (owned : st.owned = [])
      (port : (s.port st.port).state = .active) (pos : 0 < st.depth)
      (depth : st.depth = s.table.windows[st.window].fields.depth)
      (window : s.table.windows[st.window].state ≠ .disabled) :
      UnitMove s (s.readAhead.setStream k (some st))
  | created (env : FetchEnv) (k : StreamId) {st : Stream} (i : LineId)
      (queued : env.queued = s.queuedPlaces) (active : s.readAhead.streams[k] = some st)
      (short : st.owned.length < st.depth) (free : s.readAhead.lines[i] = none) :
      UnitMove s (s.readAhead.createLine env k st i)

/-- An accepted write at the pool, before the top-up pass (R86). -/
def ReadAhead.struck (ra : ReadAhead) (written : Addr) : ReadAhead :=
  ((ra.mapLines (Line.staled written)).retireWhere (ra.ownsTarget written)).mapLines
    (Line.cancelStale written)

/-- The discard of a port's work at the pool, before the top-up pass (R90). -/
def ReadAhead.shed (ra : ReadAhead) (p : PortId) (gone : List Nat) : ReadAhead :=
  ((ra.mapLines (Line.withoutReads gone)).retireWhere fun st => decide (st.port = p)).mapLines
    Line.cancelUnwanted

/-- The end of a fetch at its line, before the top-up pass (R82 to R85). -/
inductive LineEnd (ra : ReadAhead) (i : LineId) (l : Line) : ReadAhead → Prop
  | valid (poison : Bool) (data : LineData) (owned : l.owner.isSome = true) (fresh : l.stale = false) :
      LineEnd ra i l
        (ra.setLine i (some { l with state := .valid poison data, horizon := [], attached := [] }))
  | unwanted (loose : l.owner = none ∨ l.stale = true) : LineEnd ra i l (ra.setLine i none)
  | failed : LineEnd ra i l ((ra.retireOwner l).setLine i none)

/-! ## Owners of slots -/

/-- What the owner of a BUSY slot is told, in the part `f` whose slot has been taken from it (R112, R113, R117). -/
inductive Told (s f : State) : SlotOwner → State → Prop
  /-- There is no owner to tell; a slot without its owner is otherwise no sound state. -/
  | nobody {owner : SlotOwner} (absent : owner = .demand none ∨ s.workSound = false) : Told s f owner f
  /-- A demand read ends (R55, R56, R58, R59). -/
  | ended (place : Nat) (status : Status) (data : List Byte) :
      Told s f (.demand (some place)) (f.finish place status data)
  /-- A demand read waits (R56). -/
  | waits {place : Nat} {e : Entry} {r : ReadFields} (n : Nat) (t : Timer)
      (found : s.entryAt place = some e) (kind : e.kind = .read r) :
      Told s f (.demand (some place)) { f with tracker := f.tracker.map fun x =>
        if x.place = e.place then
          { x with kind := .read { r with waitCount := n }, state := .backoff t }
        else x }
  /-- The head record departs, with it the records that `g` names (R29, R36 to R40). -/
  | departs {head : WriteRecord} {rest : List WriteRecord} (d : Departure) (g : WriteRecord → Bool)
      (queue : s.queue = head :: rest) :
      Told s f (.write head.place) (f.depart (rest.filter fun r => !g r)
        ((head, d) :: (rest.filter g).map fun r => (r, .withdrawn)))
  /-- The head record waits (R30). -/
  | headWaits {head : WriteRecord} {rest : List WriteRecord} (n : Nat) (t : Timer)
      (queue : s.queue = head :: rest) :
      Told s f (.write head.place)
        { f with queue := { head with waitCount := n, state := .backoff t } :: rest }
  /-- A fetch ends, and its attached reads with it (R82, R83, R85). -/
  | fetchEnds {i : LineId} {l : Line} {ra : ReadAhead} (status : Status)
      (data : State → Nat → List Byte) (line : s.readAhead.lines[i] = some l)
      (ends : LineEnd s.readAhead i l ra) :
      Told s f (.fetch i)
        { l.attached.foldl (fun t x => t.finish x status (data t x)) f with readAhead := ra }
  /-- A fetch waits (R84). -/
  | fetchWaits {i : LineId} {l : Line} (n : Nat) (t : Timer) (line : s.readAhead.lines[i] = some l) :
      Told s f (.fetch i) { f with
        readAhead :=
          s.readAhead.setLine i (some { l with state := .pending (some t), waitCount := n }) }

/-! ## Requests -/

/-- A request that has passed steps 1 to 3 (R134). -/
structure Admitted (s : State) (p : PortId) (r : Request) : Prop where
  active : (s.port p).state = .active
  writes : r.needsWrite = true → 0 < (s.port p).writeHeld
  requests : r.needsRequest = true → 0 < (s.port p).requestHeld
  fresh : ∀ tag, r.tag? = some tag → ∀ e ∈ s.tracker, ¬ (e.port = p ∧ e.tag = tag)

/-- The needed credits are spent (R136). -/
def State.spentBy (s : State) (p : PortId) (r : Request) : State :=
  s.setPort p (r.spend (s.port p))

/-- The write credit of a write that does not join the queue is owed at once (R10, R11). -/
def State.owedBack (s : State) (p : PortId) (r : Request) : State :=
  if r.needsWrite then s.oweWrite p else s

/-- The discard of a port's work (R148), before the top-up pass; the port takes a state. -/
def State.cut (s : State) (p : PortId) (state : PortState) : State :=
  { s with
    tracker := s.tracker.filter fun e => !decide (e.port = p)
    queue := s.queue.map (WriteRecord.unlinked p)
    readAhead := s.readAhead.shed p (s.placesOf p)
    memPort :=
      { s.memPort with slots := mapVec (Slot.withoutEntries (s.placesOf p)) s.memPort.slots }
    }.setPort p
      { (s.port p).discarded (s.startUp.params.writeAllocation p)
          (s.startUp.params.requestAllocation p) (queuedRecords s.queue p) with state := state }

/-! ## Moves -/

/-- One move of the part. -/
inductive Move (s : State) : State → Prop
  | quiet {u : State} (same : u.bare = s.bare) : Move s u
  | table (t : WindowTable) (sound : s.table.Sound → t.Sound)
      (used : ∀ n : WindowId, t.windows[n].state = .disabled →
        s.table.windows[n].state = .disabled ∨
          ∀ (k : StreamId) (st : Stream), s.readAhead.streams[k] = some st → st.window ≠ n) :
      Move s { s with table := t }
  | params (new : Params) (valid : new.valid = true)
      (allowed : s.startUp.params.changesAllocations new = true → s.refusesAllocations new = false) :
      Move s (s.replaceParams new)
  | powerOn : Move s s.powerOnValues
  | warmReset : Move s s.warmReset
  | configured (table : WindowTable) (params : Params) (mask : AlertMask) (result : LoadResult)
      (read : Nat) (loading : s.startUp.partState = .loading) (valid : params.valid = true)
      (sound : table.Sound) : Move s (s.configured table params mask result read)
  | linkUp (p : PortId) : Move s (s.linkUp p)
  | cut (p : PortId) (state : PortState) (up : (s.port p).state ≠ .down) (state_ne : state ≠ .active) :
      Move s (s.cut p state)
  /-- A demand read is accepted (R49 to R52). -/
  | readJoins {p : PortId} {tag n : Byte} {a : Addr} (fields : ReadFields)
      (admitted : Admitted s p (.read tag a n)) (horizon : fields.horizon = s.queuedPlaces) :
      Move s (((s.spentBy p (.read tag a n)).addRead p tag fields .orderWait).weighReads)
  /-- An entry is DONE at its acceptance (R63). -/
  | doneJoins {p : PortId} {r : Request} (e : Entry) (status : Status) (data : List Byte)
      (admitted : Admitted s p r) (needs : r.needsRequest = true) (tag : r.tag? = some e.tag)
      (port : e.port = p) (place : e.place = s.nextPlace) (places : e.places = [e.place]) :
      Move s ((((s.spentBy p r).owedBack p r).addEntry e).finish s.nextPlace status data)
  /-- A read attaches to a line on its way (R73). -/
  | attaches {p : PortId} {tag n : Byte} {a : Addr} {i : LineId} {l : Line} (fields : ReadFields)
      (admitted : Admitted s p (.read tag a n)) (horizon : fields.horizon = [])
      (line : s.readAhead.lines[i] = some l) (invalid : l.isValid = false) :
      Move s { (s.spentBy p (.read tag a n)).addRead p tag fields .attached with
        readAhead := s.readAhead.attach i s.nextPlace }
  /-- A posted write is dropped (R11). -/
  | writeDropped {p : PortId} {r : Request} (admitted : Admitted s p r) (write : r.needsWrite = true)
      (posted : r.needsRequest = false) : Move s ((s.spentBy p r).oweWrite p)
  /-- A write joins the queue (R23 to R26). -/
  | writeJoins {p : PortId} {ack : Bool} {tag n : Byte} {a : Addr} {data : List LinkByte}
      (r : WriteRecord) (admitted : Admitted s p (.write ack tag a n data))
      (place : r.place = s.nextPlace) (port : r.port = p) (state : r.state = .queued)
      (ackTag : r.ackTag = if ack then some tag else none)
      (link : r.link = if ack then some s.nextPlace else none) :
      Move s { (s.spentBy p (.write ack tag a n data)).takePlace p ack tag with
        queue := s.queue ++ [r], readAhead := s.readAhead.struck r.line }
  /-- A fence waits for the records of its horizon (R95). -/
  | fenceJoins {p : PortId} {tag : Byte} {scope : Scope} {purge : Bool} (f : FenceFields)
      (admitted : Admitted s p (.fence tag scope purge)) (waits : f.horizon ≠ [])
      (horizon : ∀ x ∈ f.horizon, x ∈ s.queuedPlaces) :
      Move s ((s.spentBy p (.fence tag scope purge)).addEntry
        { place := s.nextPlace, port := p, tag := tag, kind := .fence f, state := .pending })
  | granted {slot : SlotId} {g : Grant} (free : s.memPort.lowestFree = some slot)
      (choice : s.chooseGrant = some g) : Move s (s.grantTo slot g)
  /-- A BUSY slot becomes FREE or ORPHANED, and its owner is told. -/
  | told {i : SlotId} {owner : SlotOwner} {line : Addr} {deadline : Timer} {slot : Slot} {v u : State}
      (busy : s.memPort.slots[i] = .busy owner line deadline)
      (slot_eq : slot = .free ∨ slot = .orphaned owner.kind line)
      (told : Told s (s.setSlot i slot) owner v) (weighed : (slot = .free ∧ u = v) ∨ u = v.weighReads) :
      Move s u
  /-- ORPHANED slots become FREE (R114, R126). -/
  | reclaimed (slots : Vector Slot 4) (freed : ∀ i : SlotId, slots[i] = s.memPort.slots[i] ∨
      ((s.memPort.slots[i]).isOrphaned = true ∧ slots[i] = .free)) :
      Move s { s with memPort := { s.memPort with slots := slots } }.weighReads
  /-- The head record's backoff ends (R31). -/
  | headReady {head : WriteRecord} {rest : List WriteRecord} {t : Timer} (queue : s.queue = head :: rest)
      (state : head.state = .backoff t) :
      Move s { s with queue := { head with state := .queued } :: rest }
  /-- A read's backoff ends (R57). -/
  | readReady {e : Entry} {t : Timer} (mem : e ∈ s.tracker) (state : e.state = .backoff t) :
      Move s { s with tracker := setEntryState s.tracker e.place .orderWait }.weighReads
  /-- A line's backoff ends (R84). -/
  | lineReady {i : LineId} {l : Line} {t : Timer} (line : s.readAhead.lines[i] = some l)
      (state : l.state = .pending (some t)) :
      Move s { s with readAhead := s.readAhead.setLine i (some { l with state := .pending none }) }
  | pool {ra : ReadAhead} (unit : UnitMove s ra) : Move s { s with readAhead := ra }
  | completionBegun (p : PortId) (message : List LinkByte) (active : (s.port p).state = .active) :
      Move s (s.setPort p { s.port p with link := .sendingCompletion message })
  | completionSent {p : PortId} {message : List LinkByte} {oldest : Nat} {rest : List Nat}
      (link : (s.port p).link = .sendingCompletion message) (done : (s.port p).done = oldest :: rest) :
      Move s ((s.setPort p { s.port p with link := .idle, done := rest }).freeEntry p oldest)
  | creditBegun (p : PortId) (active : (s.port p).state = .active) :
      Move s (s.setPort p (s.port p).creditBegun)
  | linkIdle (p : PortId) : Move s (s.setPort p { s.port p with link := .idle })

/-- A chain of moves. -/
abbrev Moves : State → State → Prop :=
  Relation.ReflTransGen Move

end Sys2Proof.Machine
end

section
/-! SUPPORT. The chains of moves of the read-ahead unit and of a discard (O55, O56, O57, O59). -/

namespace Sys2Proof.Machine

theorem Moves.quiet {s u : State} (same : u.bare = s.bare) : Moves s u :=
  .single (.quiet same)

/-! ## The read-ahead unit -/

theorem Moves.retire (s : State) (k : StreamId) :
    Moves s { s with readAhead := s.readAhead.retire k } :=
  .single (.pool (.retired k))

theorem Moves.retireWhere (s : State) (f : Stream → Bool) :
    Moves s { s with readAhead := s.readAhead.retireWhere f } :=
  ReadAhead.retireWhere_keeps (fun ra => Moves s { s with readAhead := ra })
    (fun _ k h => h.trans (Moves.retire _ k)) f s.readAhead .refl

/-- A top-up pass is a chain of creations (R77). -/
theorem Moves.topUp (s : State) {env : FetchEnv} (queued : env.queued = s.queuedPlaces) :
    Moves s { s with readAhead := s.readAhead.topUp env } := by
  refine ReadAhead.topUp_keeps (fun ra => Moves s { s with readAhead := ra }) env ?_ s.readAhead .refl
  intro ra k i st active short free h
  unfold Stream.short at short
  rw [Bool.and_eq_true, decide_eq_true_eq] at short
  exact h.tail (.pool (.created env k i queued active short.1 free))

/-- A stream gives up its first lines, and a top-up pass is made. -/
theorem Moves.trim_topUp (s : State) {env : FetchEnv} (queued : env.queued = s.queuedPlaces)
    {k : StreamId} {st : Stream} {gone kept : List LineId} (next : Nat) (last : Time)
    (active : s.readAhead.streams[k] = some st) (owned : st.owned = gone ++ kept) :
    Moves s { s with readAhead := ((s.readAhead.releaseAll gone).setStream k
      (some { st with owned := kept, nextLine := next, lastUse := last })).topUp env } :=
  .head (.pool (.trimmed k gone kept next last active owned)) (Moves.topUp _ queued)

theorem Moves.use (s : State) {env : FetchEnv} (queued : env.queued = s.queuedPlaces) (i : LineId) :
    Moves s { s with readAhead := s.readAhead.use env i } := by
  unfold ReadAhead.use
  split
  · exact .refl
  · split
    · exact .refl
    · split
      · exact .refl
      · rename_i st active
        exact Moves.trim_topUp s queued st.nextLine env.now active List.takeWhile_append_dropWhile.symm

theorem Moves.miss (s : State) {env : FetchEnv} (queued : env.queued = s.queuedPlaces)
    (windows : env.windows = s.table.windows) {p : PortId} {w : WindowId} (target : Addr)
    (port : (s.port p).state = .active) (pos : 0 < s.table.windows[w].fields.depth)
    (window : s.table.windows[w].state ≠ .disabled) :
    Moves s { s with readAhead := s.readAhead.miss env p w target } := by
  unfold ReadAhead.miss
  split
  · unfold ReadAhead.reAim
    split
    · exact .refl
    · rename_i st active
      exact Moves.trim_topUp s queued _ env.now active (List.append_nil _).symm
  · split
    · rename_i k _
      refine (Moves.retire s k).trans (.head (.pool (.opened k
        { port := p, window := w, depth := env.windows[w].fields.depth,
          nextLine := target.toNat + 64, owned := [], lastUse := env.now } ?_ rfl port ?_ ?_ window))
        (Moves.topUp _ queued))
      · rw [ReadAhead.retire_streams, if_pos rfl]
      · rw [windows]
        exact pos
      · rw [windows]
    · exact .refl

theorem Moves.idleExpiry {s u : State} {k : StreamId} (h : s.idleExpiry k = some u) : Moves s u := by
  unfold State.idleExpiry at h
  split at h
  · cases h
  · split at h
    · cases h
      exact (Moves.retire s k).trans (Moves.topUp _ rfl)
    · cases h

theorem Moves.fetchBackoffEnd {s u : State} {i : LineId} (h : s.fetchBackoffEnd i = some u) :
    Moves s u := by
  unfold State.fetchBackoffEnd at h
  split at h
  · cases h
  · rename_i l line
    split at h
    · rename_i t state
      split at h
      · cases h
        exact .single (.lineReady line state)
      · cases h
    all_goals cases h

/-! ## Discarding a port's work -/

theorem State.discardPort_eq (s : State) (p : PortId) (state : PortState) :
    (s.setPort p { s.port p with state := state }).discardPort p =
      { s.cut p state with readAhead := (s.cut p state).readAhead.topUp s.fetchEnv } := by
  cases p <;> rfl

theorem State.queuedPlaces_cut (s : State) (p : PortId) (state : PortState) :
    (s.cut p state).queuedPlaces = s.queuedPlaces := by
  have kept : WriteRecord.place ∘ WriteRecord.unlinked p = WriteRecord.place := by
    funext r
    rw [Function.comp_apply, WriteRecord.unlinked]
    split <;> rfl
  unfold State.queuedPlaces State.cut
  rw [State.setPort_queue, List.map_map, kept]

theorem Moves.discardPort (s : State) (p : PortId) {state : PortState}
    (up : (s.port p).state ≠ .down) (state_ne : state ≠ .active) :
    Moves s ((s.setPort p { s.port p with state := state }).discardPort p) := by
  rw [State.discardPort_eq]
  exact .head (.cut p state up state_ne) (Moves.topUp _ (State.queuedPlaces_cut s p state).symm)

theorem Moves.portDown (s : State) (p : PortId) : Moves s (s.portDown p) := by
  unfold State.portDown
  split
  · exact .refl
  · rename_i h
    exact Moves.discardPort s p (by simp [h]) (by simp)
  · rename_i h
    exact Moves.discardPort s p (by simp [h]) (by simp)

/-- A protocol error, whether or not the credits of its request have been spent (R134, R147). -/
theorem Moves.protocolError (s : State) {p : PortId} (cause : ProtocolCause) (r : Request)
    (active : (s.port p).state = .active) : Moves s (s.protocolError p cause r) := by
  refine (Moves.quiet (State.logEvent_bare s _)).trans (Moves.discardPort _ p ?_ (by simp))
  cases p <;> exact fun h => PortState.noConfusion (active.symm.trans h)

theorem State.protocolError_spentBy (s : State) (p : PortId) (cause : ProtocolCause) (r : Request) :
    (s.spentBy p r).protocolError p cause r = s.protocolError p cause r := by
  cases p <;> rfl

end Sys2Proof.Machine
end

section
/-! SUPPORT. The chains of moves of a slot whose owner is told (O55, O56, O57, O59). -/

namespace Sys2Proof.Machine

/-! ## Slots -/

/-- A state in which a slot has been taken from its owner and made `slot` is reached, and so is it with its reads weighed. -/
def Vacates (s : State) (slot : Slot) (v : State) : Prop :=
  ∀ u : State, (slot = .free ∧ u = v) ∨ u = v.weighReads → Moves s u

section Vacated

variable {s : State} {i : SlotId} {owner : SlotOwner} {line : Addr} {deadline : Timer} {slot : Slot}

theorem Told.vacates {v : State} (busy : s.memPort.slots[i] = .busy owner line deadline)
    (slot_eq : slot = .free ∨ slot = .orphaned owner.kind line)
    (told : Told s (s.setSlot i slot) owner v) : Vacates s slot v :=
  fun _ h => .single (.told busy slot_eq told h)

/-- What is reached after a quiet move is reached. -/
theorem Vacates.after {s' v : State} (first : Moves s s') (h : Vacates s' slot v) : Vacates s slot v :=
  fun u hu => first.trans (h u hu)

/-- A top-up pass follows. -/
theorem Vacates.topUp {v : State} {env : FetchEnv} (h : Vacates s slot v)
    (queued : env.queued = v.queuedPlaces) :
    Vacates s slot { v with readAhead := v.readAhead.topUp env } := by
  rintro u (⟨free, rfl⟩ | rfl)
  · exact (h v (.inl ⟨free, rfl⟩)).trans (Moves.topUp v queued)
  · exact (h v.weighReads (.inr rfl)).trans (Moves.topUp v.weighReads queued)

/-- A slot that is sound has the owner it names, so a state whose slot names nothing is not sound. -/
theorem State.workSound_false (busy : s.memPort.slots[i] = .busy owner line deadline)
    (h : s.slotSound (.busy owner line deadline) = false) : s.workSound = false := by
  have member : Slot.busy owner line deadline ∈ s.memPort.slots.toArray.toList :=
    (mem_vector_list _ _).2 ⟨i, busy⟩
  have slots : s.memPort.slots.toArray.toList.all s.slotSound = false := by
    rw [List.all_eq_false]
    exact ⟨_, member, by simp [h]⟩
  unfold State.workSound
  simp only [slots, Bool.and_false, Bool.false_and]

theorem Vacates.unsound (busy : s.memPort.slots[i] = .busy owner line deadline)
    (slot_eq : slot = .free ∨ slot = .orphaned owner.kind line)
    (h : s.slotSound (.busy owner line deadline) = false) : Vacates s slot (s.setSlot i slot) :=
  Told.vacates busy slot_eq (.nobody (.inr (State.workSound_false busy h)))

/-! ### The head record -/

theorem Vacates.headDeparts {head : WriteRecord} {rest : List WriteRecord} {deadline : Timer}
    (busy : s.memPort.slots[i] = .busy (.write head.place) line deadline)
    (slot_eq : slot = .free ∨ slot = .orphaned .write line) (queue : s.queue = head :: rest)
    (d : Departure) : Vacates s slot ((s.setSlot i slot).depart rest [(head, d)]) := by
  have told := Told.departs (f := s.setSlot i slot) d (fun _ => false) queue
  simp only [Bool.not_false, List.filter_true, List.filter_false, List.map_nil] at told
  exact told.vacates busy slot_eq

theorem Vacates.headFails {head : WriteRecord} {rest : List WriteRecord}
    (busy : s.memPort.slots[i] = .busy (.write head.place) line deadline)
    (slot_eq : slot = .free ∨ slot = .orphaned .write line) (queue : s.queue = head :: rest)
    (cause : MemCause) : Vacates s slot ((s.setSlot i slot).headFails head rest cause) := by
  have logged (e : LogEvent) :
      Vacates s slot (((s.logEvent e).setSlot i slot).depart rest [(head, .failed cause)]) :=
    Vacates.after (.quiet (s.logEvent_bare e))
      (Vacates.headDeparts (s := s.logEvent e) busy slot_eq queue _)
  unfold State.headFails
  split
  · split
    · exact Vacates.headDeparts busy slot_eq queue _
    · exact logged _
  · split
    · exact logged _
    · rename_i n frozen
      have freezes : Moves s { s with table := s.table.setState n .frozen } := .single (.table _
        (fun sound => sound.setState n fun _ => WindowTable.frozenBy_some frozen) (fun m h => .inl (by
          rw [WindowTable.setState_windows] at h
          split at h
          · cases h
          · exact h)))
      exact Vacates.after (freezes.trans (Moves.quiet (State.logEvent_bare _ _)))
        (Told.vacates (s := State.logEvent { s with table := s.table.setState n .frozen } _) busy
          slot_eq (.departs (.failed cause) (fun r => decide (r.window = .window n)) queue))

theorem Vacates.headAnswered {head : WriteRecord} {rest : List WriteRecord}
    (busy : s.memPort.slots[i] = .busy (.write head.place) line deadline)
    (slot_eq : slot = .free ∨ slot = .orphaned .write line) (queue : s.queue = head :: rest)
    (kind : RespKind) : Vacates s slot ((s.setSlot i slot).headAnswered head rest kind) := by
  cases kind with
  | ok =>
    rw [State.headAnswered, State.headSucceeds]
    split
    · split
      · exact Vacates.after (.quiet (s.logEvent_bare _))
          (Vacates.headDeparts (s := s.logEvent _) busy slot_eq queue _)
      · exact Vacates.headDeparts busy slot_eq queue _
    · exact Vacates.headDeparts busy slot_eq queue _
  | okPoison => exact Vacates.headFails busy slot_eq queue _
  | wait =>
    rw [State.headAnswered, State.headWaits]
    split
    · exact Told.vacates busy slot_eq (.headWaits _ _ queue)
    · exact Vacates.headFails busy slot_eq queue _
  | fault => exact Vacates.headFails busy slot_eq queue _

/-- A write slot that names another record than the head names nothing. -/
theorem State.slotSound_write_false {place : Nat}
    (h : ∀ head rest, s.queue = head :: rest → head.place ≠ place) :
    s.slotSound (.busy (.write place) line deadline) = false := by
  unfold State.slotSound
  cases hq : s.queue with
  | nil => rfl
  | cons head rest => simp [h head rest hq]

theorem Vacates.writeAnswered {place : Nat}
    (busy : s.memPort.slots[i] = .busy (.write place) line deadline)
    (slot_eq : slot = .free ∨ slot = .orphaned .write line) (kind : RespKind) :
    Vacates s slot ((s.setSlot i slot).writeAnswered place kind) := by
  unfold State.writeAnswered
  rw [State.setSlot_queue]
  split
  · rename_i queue
    exact Vacates.unsound busy slot_eq (State.slotSound_write_false (by simp [queue]))
  · rename_i head rest queue
    split
    · rename_i hp
      subst hp
      exact Vacates.headAnswered busy slot_eq queue kind
    · rename_i hp
      refine Vacates.unsound busy slot_eq (State.slotSound_write_false ?_)
      rintro _ _ h
      rw [queue] at h
      cases h
      exact hp

theorem Vacates.writeTimesOut {place : Nat}
    (busy : s.memPort.slots[i] = .busy (.write place) line deadline)
    (slot_eq : slot = .free ∨ slot = .orphaned .write line) :
    Vacates s slot ((s.setSlot i slot).writeTimesOut place) := by
  unfold State.writeTimesOut
  rw [State.setSlot_queue]
  split
  · rename_i queue
    exact Vacates.unsound busy slot_eq (State.slotSound_write_false (by simp [queue]))
  · rename_i head rest queue
    split
    · rename_i hp
      subst hp
      exact Vacates.headFails busy slot_eq queue _
    · rename_i hp
      refine Vacates.unsound busy slot_eq (State.slotSound_write_false ?_)
      rintro _ _ h
      rw [queue] at h
      cases h
      exact hp

/-! ### Demand reads -/

/-- The data with which a line ends the entry at a place. -/
def State.dataAt (s : State) (line : LineData) (place : Nat) : List Byte :=
  ((s.entryAt place).map fun e => e.dataFrom line).getD []

/-- A read that is served ends as any entry does. -/
theorem State.finishRead_eq (s : State) (poison : Bool) (line : LineData) (place : Nat) :
    s.finishRead poison line place = s.finish place (readStatus poison) (s.dataAt line place) := by
  unfold State.finishRead State.dataAt
  cases h : s.entryAt place with
  | none => exact (State.finish_absent _ _ h).symm
  | some e => rfl

/-- A demand slot that names no READ names nothing that is ISSUED. -/
theorem State.workSound_demand {place : Nat} {e : Entry} (found : s.entryAt place = some e)
    (kind : ∀ r, e.kind ≠ .read r)
    (busy : s.memPort.slots[i] = .busy (.demand (some place)) line deadline) : s.workSound = false := by
  by_contra hw
  rw [Bool.not_eq_false] at hw
  have issued : e.state = .issued := by
    by_contra hne
    rw [State.workSound_false busy (by simp [State.slotSound, State.entryIs, found, hne])] at hw
    cases hw
  have entry : s.entrySound e = true := by
    unfold State.workSound at hw
    simp only [Bool.and_eq_true, List.all_eq_true] at hw
    obtain ⟨⟨_, entries⟩, _⟩ := hw
    exact entries e (State.entryAt_some found).1
  unfold State.entrySound at entry
  rw [issued] at entry
  cases hk : e.kind with
  | read r => exact kind r hk
  | ackedWrite => simp [hk] at entry
  | fence f => simp [hk] at entry

theorem Vacates.readAnswered {place : Nat}
    (busy : s.memPort.slots[i] = .busy (.demand (some place)) line deadline)
    (slot_eq : slot = .free ∨ slot = .orphaned .demand line) (r : Response) :
    Vacates s slot ((s.setSlot i slot).readAnswered place r) := by
  have same : (s.setSlot i slot).entryAt place = s.entryAt place := rfl
  have ends (status : Status) (data : List Byte) :
      Vacates s slot ((s.setSlot i slot).finish place status data) :=
    Told.vacates busy slot_eq (.ended place status data)
  unfold State.readAnswered
  rw [same]
  cases found : s.entryAt place with
  | none =>
    exact Vacates.unsound busy slot_eq (by simp [State.slotSound, State.entryIs, found])
  | some e =>
    dsimp only
    cases kind : e.kind with
    | ackedWrite =>
      exact Told.vacates busy slot_eq
        (.nobody (.inr (State.workSound_demand found (by simp [kind]) busy)))
    | fence f =>
      exact Told.vacates busy slot_eq
        (.nobody (.inr (State.workSound_demand found (by simp [kind]) busy)))
    | read fields =>
      dsimp only
      split
      · rw [State.finishRead_eq]
        exact ends _ _
      · rw [State.finishRead_eq]
        exact ends _ _
      · unfold State.readWaits
        split
        · exact Told.vacates busy slot_eq (.waits _ _ found kind)
        · rw [(State.entryAt_some found).2]
          exact ends _ _
      · exact ends _ _

/-! ### Fetches -/

/-- Entries that end one after another change no queue. -/
theorem State.foldl_finish_queue (places : List Nat) (status : Status)
    (data : State → Nat → List Byte) (s : State) :
    (places.foldl (fun t x => t.finish x status (data t x)) s).queue = s.queue :=
  foldl_keeps _ State.queue (fun _ _ => by simp) places s

theorem ReadAhead.attachedTo_of_some {ra : ReadAhead} {k : LineId} {l : Line}
    (h : ra.lines[k] = some l) : ra.attachedTo k = l.attached := by
  unfold ReadAhead.attachedTo
  rw [h]

/-- A fetch ends, and a top-up pass may follow. -/
theorem Vacates.fetchEnds {k : LineId} {l : Line} {ra : ReadAhead} {env : FetchEnv} (status : Status)
    (data : State → Nat → List Byte)
    (busy : s.memPort.slots[i] = .busy (.fetch k) line deadline)
    (slot_eq : slot = .free ∨ slot = .orphaned .fetch line) (here : s.readAhead.lines[k] = some l)
    (ends : LineEnd s.readAhead k l ra) (queued : env.queued = s.queuedPlaces) :
    let f := l.attached.foldl (fun t x => t.finish x status (data t x)) (s.setSlot i slot)
    Vacates s slot { f with readAhead := ra } ∧
      Vacates s slot { f with readAhead := ra.topUp env } := by
  have first := Told.vacates busy slot_eq (.fetchEnds (f := s.setSlot i slot) status data here ends)
  refine ⟨first, first.topUp (queued.trans ?_)⟩
  exact congrArg (List.map WriteRecord.place)
    (State.foldl_finish_queue l.attached status data (s.setSlot i slot)).symm

theorem Vacates.fetchFails {k : LineId}
    (busy : s.memPort.slots[i] = .busy (.fetch k) line deadline)
    (slot_eq : slot = .free ∨ slot = .orphaned .fetch line) (cause : MemCause) :
    Vacates s slot ((s.setSlot i slot).fetchFails k cause) := by
  unfold State.fetchFails
  dsimp only
  have unit : ((s.setSlot i slot).failAttached k cause).readAhead = s.readAhead :=
    foldl_keeps _ State.readAhead (fun _ _ => by simp) _ _
  rw [unit]
  unfold ReadAhead.fetchFailed
  split
  · rename_i none
    have told : (s.setSlot i slot).failAttached k cause = s.setSlot i slot := by
      simp [State.failAttached, ReadAhead.attachedTo, none]
    rw [told]
    exact Vacates.unsound busy slot_eq (by simp [State.slotSound, ReadAhead.lineIs, none])
  · rename_i l here
    refine cast ?_ (Vacates.fetchEnds cause.status (fun _ _ => []) busy slot_eq here .failed
      (env := ((s.setSlot i slot).failAttached k cause).fetchEnv) ?_).2
    · unfold State.failAttached
      rw [State.setSlot_readAhead, ReadAhead.attachedTo_of_some here]
    · exact congrArg (List.map WriteRecord.place) (State.foldl_finish_queue _ _ (fun _ _ => []) _)

theorem Vacates.fetchSucceeds {k : LineId}
    (busy : s.memPort.slots[i] = .busy (.fetch k) line deadline)
    (slot_eq : slot = .free ∨ slot = .orphaned .fetch line) (poison : Bool) (data : LineData) :
    Vacates s slot ((s.setSlot i slot).fetchSucceeds k poison data) := by
  unfold State.fetchSucceeds
  dsimp only
  have unit : ((s.setSlot i slot).serveAttached k poison data).readAhead = s.readAhead :=
    foldl_keeps _ State.readAhead (fun _ _ => by simp) _ _
  have queued : ((s.setSlot i slot).serveAttached k poison data).queue = s.queue :=
    foldl_keeps _ State.queue (fun _ _ => by simp) _ _
  rw [unit]
  unfold ReadAhead.fetched
  split
  · rename_i none
    have told : (s.setSlot i slot).serveAttached k poison data = s.setSlot i slot := by
      simp [State.serveAttached, ReadAhead.attachedTo, none]
    rw [told]
    exact Vacates.unsound busy slot_eq (by simp [State.slotSound, ReadAhead.lineIs, none])
  · rename_i l here
    have served : (s.setSlot i slot).serveAttached k poison data =
        l.attached.foldl (fun t x => t.finish x (readStatus poison) (t.dataAt data x))
          (s.setSlot i slot) := by
      unfold State.serveAttached
      rw [State.setSlot_readAhead, ReadAhead.attachedTo_of_some here]
      simp only [State.finishRead_eq]
    have envQueued : ((s.setSlot i slot).serveAttached k poison data).fetchEnv.queued =
        s.queuedPlaces := congrArg (List.map WriteRecord.place) queued
    split
    · rename_i fresh
      rw [served]
      exact (Vacates.fetchEnds _ _ busy slot_eq here (.valid poison data fresh.1 fresh.2) envQueued).1
    · rename_i stale
      have loose : l.owner = none ∨ l.stale = true := by
        rw [Option.isSome_iff_ne_none] at stale
        by_cases ho : l.owner = none
        · exact .inl ho
        · exact .inr (by simpa [ho] using stale)
      have ended :=
        (Vacates.fetchEnds (readStatus poison) (fun t x => t.dataAt data x) busy slot_eq here
          (.unwanted loose) envQueued).2
      rw [← served] at ended
      exact ended

theorem Vacates.fetchAnswered {k : LineId}
    (busy : s.memPort.slots[i] = .busy (.fetch k) line deadline)
    (slot_eq : slot = .free ∨ slot = .orphaned .fetch line) (r : Response) :
    Vacates s slot ((s.setSlot i slot).fetchAnswered k r) := by
  unfold State.fetchAnswered
  split
  · exact Vacates.fetchSucceeds busy slot_eq _ _
  · exact Vacates.fetchSucceeds busy slot_eq _ _
  · unfold State.fetchWaits
    rw [State.setSlot_readAhead]
    split
    · rename_i none
      exact Vacates.unsound busy slot_eq (by simp [State.slotSound, ReadAhead.lineIs, none])
    · rename_i l here
      split
      · rename_i l' again
        unfold Line.afterWait at again
        split at again
        · split at again
          · cases again
            exact Told.vacates busy slot_eq (.fetchWaits _ _ here)
          · cases again
        · cases again
      · exact Vacates.fetchFails busy slot_eq _
      · rename_i dropped
        unfold Line.afterWait at dropped
        split at dropped
        · split at dropped <;> cases dropped
        · rename_i unwanted
          rw [not_or, not_not] at unwanted
          obtain ⟨attached, unwanted⟩ := unwanted
          have loose : l.owner = none ∨ l.stale = true := by
            rw [Option.isSome_iff_ne_none] at unwanted
            by_cases ho : l.owner = none
            · exact .inl ho
            · exact .inr (by simpa [ho] using unwanted)
          have ended := (Vacates.fetchEnds (env := (s.setSlot i slot).fetchEnv) .ok (fun _ _ => [])
            busy slot_eq here (.unwanted loose) rfl).2
          rw [attached] at ended
          exact ended
  · exact Vacates.fetchFails busy slot_eq _

/-! ### Responses and deadlines -/

theorem Vacates.deliver (busy : s.memPort.slots[i] = .busy owner line deadline)
    (slot_eq : slot = .free ∨ slot = .orphaned owner.kind line) (r : Response) :
    Vacates s slot ((s.setSlot i slot).deliver owner r) := by
  cases owner with
  | write place => exact Vacates.writeAnswered busy slot_eq _
  | demand entry =>
    cases entry with
    | none => exact Told.vacates busy slot_eq (.nobody (.inl rfl))
    | some place => exact Vacates.readAnswered busy slot_eq r
  | fetch k => exact Vacates.fetchAnswered busy slot_eq r

theorem Vacates.tellTimeout (busy : s.memPort.slots[i] = .busy owner line deadline)
    (slot_eq : slot = .free ∨ slot = .orphaned owner.kind line) :
    Vacates s slot ((s.setSlot i slot).tellTimeout owner) := by
  cases owner with
  | write place => exact Vacates.writeTimesOut busy slot_eq
  | demand entry =>
    cases entry with
    | none => exact Told.vacates busy slot_eq (.nobody (.inl rfl))
    | some place => exact Told.vacates busy slot_eq (.ended place _ _)
  | fetch k => exact Vacates.fetchFails busy slot_eq _

end Vacated

/-- A slot that is ORPHANED becomes FREE. -/
theorem Moves.freeOrphan {s : State} {i : SlotId} {kind : SlotKind} {line : Addr}
    (orphaned : s.memPort.slots[i] = .orphaned kind line) :
    Moves s (s.setSlot i .free).weighReads := by
  refine .single (.reclaimed (s.memPort.slots.set i .free) fun j => ?_)
  rw [set_getElem_fin]
  split
  · rename_i h
    exact .inr ⟨by rw [h, orphaned]; rfl, rfl⟩
  · exact .inl rfl

theorem Moves.respond (s : State) (r : Response) : Moves s (s.respond r) := by
  unfold State.respond
  split
  · exact .quiet (s.logEvent_bare _)
  · rename_i orphaned
    exact (Moves.quiet (s.logEvent_bare _)).trans (Moves.freeOrphan (s := s.logEvent _) orphaned)
  · rename_i busy
    exact Vacates.deliver busy (.inl rfl) r _ (.inl ⟨rfl, rfl⟩)

theorem Moves.slotDeadline {s u : State} {i : SlotId} (h : s.slotDeadline i = some u) : Moves s u := by
  unfold State.slotDeadline at h
  split at h
  · cases h
  · cases h
  · rename_i busy
    split at h
    · cases h
      exact Vacates.tellTimeout busy (.inr rfl) _ (.inr rfl)
    · cases h

end Sys2Proof.Machine
end

section
/-! SUPPORT. The chains of moves of a request (O55, O56, O57, O59). -/

namespace Sys2Proof.Machine

/-! ## Requests -/

section Requests

variable {s : State} {p : PortId}

@[simp] theorem State.spentBy_queue (s : State) (p : PortId) (r : Request) :
    (s.spentBy p r).queue = s.queue := State.setPort_queue s p _

@[simp] theorem State.spentBy_readAhead (s : State) (p : PortId) (r : Request) :
    (s.spentBy p r).readAhead = s.readAhead := State.setPort_readAhead s p _

@[simp] theorem State.spentBy_table (s : State) (p : PortId) (r : Request) :
    (s.spentBy p r).table = s.table := State.setPort_table s p _

@[simp] theorem State.spentBy_nextPlace (s : State) (p : PortId) (r : Request) :
    (s.spentBy p r).nextPlace = s.nextPlace := State.setPort_nextPlace s p _

@[simp] theorem State.spentBy_fetchEnv (s : State) (p : PortId) (r : Request) :
    (s.spentBy p r).fetchEnv = s.fetchEnv := State.setPort_fetchEnv s p _

@[simp] theorem State.spentBy_queuedPlaces (s : State) (p : PortId) (r : Request) :
    (s.spentBy p r).queuedPlaces = s.queuedPlaces := State.setPort_queuedPlaces s p _

theorem State.spentBy_port_state (s : State) (p q : PortId) (r : Request) :
    ((s.spentBy p r).port q).state = (s.port q).state := by
  cases p <;> cases q <;> rfl

@[simp] theorem State.fetchEnv_queued (s : State) : s.fetchEnv.queued = s.queuedPlaces := rfl

@[simp] theorem State.fetchEnv_windows (s : State) : s.fetchEnv.windows = s.table.windows := rfl

theorem Moves.readDemand {tag n : Byte} {a : Addr} (admitted : Admitted s p (.read tag a n))
    (fields : ReadFields) : Moves s ((s.spentBy p (.read tag a n)).readDemand p tag fields) :=
  .single (.readJoins _ admitted (by
    rw [State.spentBy_queue]
    rfl))

/-- A READ entry that is DONE at its acceptance. -/
theorem Moves.readDone {tag n : Byte} {a : Addr} (admitted : Admitted s p (.read tag a n))
    (fields : ReadFields) (status : Status) (data : List Byte) :
    Moves s (((s.spentBy p (.read tag a n)).addRead p tag { fields with horizon := [] }
      .orderWait).finish s.nextPlace status data) := by
  have done := Move.doneJoins
    { place := s.nextPlace, port := p, tag := tag, kind := .read { fields with horizon := [] },
      state := .orderWait } status data admitted rfl rfl rfl rfl rfl
  rw [State.addRead, State.spentBy_nextPlace]
  exact .single done

/-- What a lookup that hits has found (R71). -/
theorem ReadAhead.lookup_hit {ra : ReadAhead} {w : WindowId} {target : Addr} {i : LineId}
    (h : ra.lookup p w target = .hit i) :
    ∃ l poison data, ra.lines[i] = some l ∧ l.state = .valid poison data := by
  unfold ReadAhead.lookup at h
  split at h
  · rename_i found
    cases h
    have := (ReadAhead.earliest_some found).1
    rw [Bool.and_eq_true, ReadAhead.lineIs_true] at this
    obtain ⟨_, l, line, valid⟩ := this
    unfold Line.isValid at valid
    split at valid
    · cases valid
    · cases valid
    · rename_i poison data state
      exact ⟨l, poison, data, line, state⟩
  · split at h <;> cases h

/-- What a lookup that attaches has found (R71). -/
theorem ReadAhead.lookup_attach {ra : ReadAhead} {w : WindowId} {target : Addr} {i : LineId}
    (h : ra.lookup p w target = .attach i) :
    ∃ l, ra.lines[i] = some l ∧ l.isValid = false ∧ l.stale = false := by
  unfold ReadAhead.lookup at h
  split at h
  · cases h
  · split at h
    · rename_i found
      cases h
      have := (ReadAhead.earliest_some found).1
      rw [Bool.and_eq_true, ReadAhead.lineIs_true] at this
      obtain ⟨_, l, line, way⟩ := this
      rw [Bool.and_eq_true, Bool.not_eq_true', Bool.not_eq_true'] at way
      exact ⟨l, line, way.1, way.2⟩
    · cases h

/-- A stream is used after a move that leaves queue and pool (R74). -/
theorem Moves.useAfter {u : State} (first : Moves s u) (queue : u.queue = s.queue)
    (pool : u.readAhead = s.readAhead) (i : LineId) :
    Moves s { u with readAhead := s.readAhead.use s.fetchEnv i } := by
  rw [← pool]
  exact first.trans (Moves.use u (congrArg (List.map WriteRecord.place) queue.symm) i)

theorem Moves.readHit {tag n : Byte} {a : Addr} (admitted : Admitted s p (.read tag a n))
    (fields : ReadFields) {i : LineId} {l : Line} {poison : Bool} {data : LineData}
    (line : s.readAhead.lines[i] = some l) (valid : l.state = .valid poison data) :
    Moves s ((s.spentBy p (.read tag a n)).readHit p tag fields i) := by
  unfold State.readHit
  simp only [State.spentBy_readAhead, State.spentBy_nextPlace, State.spentBy_fetchEnv]
  obtain ⟨state, stale, target, owner, retry, waitCount, horizon, order, attached⟩ := l
  subst valid
  rw [line]
  dsimp only
  rw [State.finishRead_eq]
  exact Moves.useAfter (Moves.readDone admitted fields _ _) (by simp [State.addRead])
    (by simp [State.addRead]) i

theorem Moves.readAttach {tag n : Byte} {a : Addr} (admitted : Admitted s p (.read tag a n))
    (fields : ReadFields) {i : LineId} {l : Line} (line : s.readAhead.lines[i] = some l)
    (invalid : l.isValid = false) :
    Moves s ((s.spentBy p (.read tag a n)).readAttach p tag fields i) := by
  unfold State.readAttach
  rw [State.spentBy_readAhead, State.spentBy_nextPlace, State.spentBy_fetchEnv]
  refine .head (.attaches (fields := { fields with horizon := [] }) admitted rfl line invalid) ?_
  refine Moves.use _ ?_ i
  exact (State.spentBy_queuedPlaces s p _).symm

theorem Moves.readMiss {tag n : Byte} {a : Addr} (admitted : Admitted s p (.read tag a n))
    (fields : ReadFields) {w : WindowId} (pos : 0 < s.table.windows[w].fields.depth)
    (window : s.table.windows[w].state ≠ .disabled) :
    Moves s ((s.spentBy p (.read tag a n)).readMiss p tag fields w) := by
  unfold State.readMiss
  refine (Moves.readDemand admitted fields).trans ?_
  have table : ((s.spentBy p (.read tag a n)).readDemand p tag fields).table = s.table :=
    State.spentBy_table s p _
  have miss := Moves.miss ((s.spentBy p (.read tag a n)).readDemand p tag fields)
    (env := (s.spentBy p (.read tag a n)).fetchEnv) rfl rfl (p := p) (w := w) fields.line
    ((s.spentBy_port_state p p _).trans admitted.active) (by rwa [table]) (by rwa [table])
  exact miss

/-- A window that a request matches is not DISABLED (R4). -/
theorem WindowTable.matching_enabled {t : WindowTable} {a : Addr} {w : WindowId}
    (h : t.matching a = .window w) : t.windows[w].state ≠ .disabled :=
  ((t.takes_iff a w).1 ((t.matching_eq_window a w).1 h).1).1

theorem Moves.handOffRead {tag n : Byte} {a : Addr} (admitted : Admitted s p (.read tag a n)) :
    Moves s ((s.spentBy p (.read tag a n)).handOffRead p tag a n) := by
  unfold State.handOffRead
  dsimp only
  split
  · split
    · rw [State.readUnmapped, State.spentBy_nextPlace]
      exact Moves.readDone admitted _ _ _
    · exact Moves.readDemand admitted _
  · rename_i w matched
    rw [State.spentBy_table] at matched ⊢
    split
    · rename_i pos
      unfold State.readPresented
      rw [State.spentBy_readAhead]
      split
      · rename_i i hit
        obtain ⟨l, poison, data, line, valid⟩ := ReadAhead.lookup_hit hit
        exact Moves.readHit admitted _ line valid
      · rename_i i attach
        obtain ⟨l, line, invalid, _⟩ := ReadAhead.lookup_attach attach
        exact Moves.readAttach admitted _ line invalid
      · exact Moves.readMiss admitted _ pos (WindowTable.matching_enabled matched)
    · exact Moves.readDemand admitted _

/-! ### Writes -/

theorem Moves.acceptWrite {ack : Bool} {tag n : Byte} {a : Addr} {data : List LinkByte}
    (admitted : Admitted s p (.write ack tag a n data)) (ref : WindowRef) :
    Moves s ((s.spentBy p (.write ack tag a n data)).acceptWrite p ref ack tag a data) := by
  have joins := Move.writeJoins ((s.spentBy p (.write ack tag a n data)).newRecord p ref ack tag a data)
    admitted (State.spentBy_nextPlace s p _) rfl rfl rfl
    (by rw [← State.spentBy_nextPlace s p (.write ack tag a n data)]; rfl)
  refine .head joins ((Moves.topUp _ (env :=
    { (s.spentBy p (.write ack tag a n data)).fetchEnv with
      queued := s.queuedPlaces ++ [s.nextPlace] }) ?_).tail (.quiet ?_))
  · simp [State.queuedPlaces, State.newRecord]
  · rw [State.acceptWrite_eq, State.takePlace_eq]
    simp [State.bare, ReadAhead.invalidate, ReadAhead.struck]

theorem Moves.dropWrite {tag n : Byte} {a : Addr} {data : List LinkByte}
    (admitted : Admitted s p (.write false tag a n data)) (ref : WindowRef) :
    Moves s ((s.spentBy p (.write false tag a n data)).dropWrite p ref) := by
  refine .head (.writeDropped admitted rfl rfl) ?_
  have dropped : Move ((s.spentBy p (.write false tag a n data)).oweWrite p)
      { (s.spentBy p (.write false tag a n data)).oweWrite p with
        table := ((s.spentBy p (.write false tag a n data)).oweWrite p).table.drop ref } :=
    .table _ (fun sound => sound.drop ref)
      (fun m h => .inl (by rwa [WindowTable.drop_state] at h))
  refine .head dropped (Moves.quiet ?_)
  cases p <;> rfl

theorem Moves.refuseWrite {tag n : Byte} {a : Addr} {data : List LinkByte}
    (admitted : Admitted s p (.write true tag a n data)) (status : Status) :
    Moves s ((s.spentBy p (.write true tag a n data)).refuseWrite p tag status) := by
  have place : ((s.spentBy p (.write true tag a n data)).oweWrite p).nextPlace = s.nextPlace := by
    rw [State.oweWrite_nextPlace, State.spentBy_nextPlace]
  have done := Move.doneJoins
    { place := s.nextPlace, port := p, tag := tag, kind := .ackedWrite, state := .queued }
    status [] admitted rfl rfl rfl rfl rfl
  rw [State.refuseWrite, State.addAckedWrite, place, State.spentBy_nextPlace]
  exact .single done

theorem Moves.handOffWrite {ack : Bool} {tag n : Byte} {a : Addr} {data : List LinkByte}
    (admitted : Admitted s p (.write ack tag a n data)) :
    Moves s ((s.spentBy p (.write ack tag a n data)).handOffWrite p ack tag a data) := by
  unfold State.handOffWrite
  dsimp only
  split
  · exact Moves.acceptWrite admitted _
  · split
    · rename_i acked
      subst acked
      exact Moves.refuseWrite admitted _
    · rename_i posted
      rw [Bool.not_eq_true] at posted
      subst posted
      exact Moves.dropWrite admitted _

/-! ### Fences -/

/-- A completing fence that purges retires every stream (R92). -/
theorem Moves.purge (s : State) (env : FetchEnv) :
    Moves s { s with readAhead := s.readAhead.purge env } := by
  rw [(s.readAhead.purge_eq env).1]
  exact Moves.retireWhere s _

/-- A fence with nothing to wait for completes at once (R101). -/
theorem Moves.fenceEnds {tag : Byte} {scope : Scope} {purge : Bool}
    (admitted : Admitted s p (.fence tag scope purge)) {f : FenceFields} (empty : f.horizon = []) :
    Moves s (((s.spentBy p (.fence tag scope purge)).addEntry
      { place := s.nextPlace, port := p, tag := tag, kind := .fence f,
        state := .pending }).finishFence s.nextPlace f) := by
  have done := Move.doneJoins
    { place := s.nextPlace, port := p, tag := tag, kind := .fence f, state := .pending } f.status []
    admitted rfl rfl rfl rfl (by simp only [Entry.places, empty])
  unfold State.finishFence
  dsimp only
  split
  · exact .head done (Moves.purge _ _)
  · exact .single done

theorem Moves.handOffFence {tag : Byte} {scope : Scope} {purge : Bool}
    (admitted : Admitted s p (.fence tag scope purge)) :
    Moves s ((s.spentBy p (.fence tag scope purge)).handOffFence p tag scope purge) := by
  have cleared : (s.setPort p { s.port p with dropFlag := false }).bare = s.bare := by
    cases p <;> rfl
  have admitted' : Admitted (s.setPort p { s.port p with dropFlag := false }) p
      (.fence tag scope purge) := by
    obtain ⟨active, writes, requests, fresh⟩ := admitted
    constructor
    · rw [State.setPort_port_same]
      exact active
    · exact fun h => by cases h
    · rw [State.setPort_port_same]
      exact requests
    · rw [State.setPort_tracker]
      exact fresh
  have spent : (s.spentBy p (.fence tag scope purge)).setPort p
        { (s.spentBy p (.fence tag scope purge)).port p with dropFlag := false } =
      (s.setPort p { s.port p with dropFlag := false }).spentBy p (.fence tag scope purge) := by
    cases p <;> rfl
  have place : (s.setPort p { s.port p with dropFlag := false }).nextPlace = s.nextPlace :=
    State.setPort_nextPlace s p _
  refine (Moves.quiet cleared).trans ?_
  unfold State.handOffFence
  dsimp only
  rw [spent, State.spentBy_nextPlace, ← place]
  split
  · rename_i none
    exact Moves.fenceEnds admitted' none
  · rename_i waits
    refine .single (.fenceJoins _ admitted' waits fun x hx => ?_)
    simp only [State.fenceHorizon, State.spentBy_queue] at hx
    rw [State.setPort_queuedPlaces]
    obtain ⟨r, hr, rfl⟩ := List.mem_map.1 hx
    exact List.mem_map.2 ⟨r, (List.mem_filter.1 hr).1, rfl⟩

/-! ### The five steps -/

theorem Moves.handOff {r : Request} (admitted : Admitted s p r) :
    Moves s ((s.spentBy p r).handOff p r) := by
  cases r with
  | read tag a n => exact Moves.handOffRead admitted
  | write ack tag a n data => exact Moves.handOffWrite admitted
  | fence tag scope purge => exact Moves.handOffFence admitted
  | unknown =>
    refine .quiet ?_
    unfold State.spentBy
    cases p <;> rfl

theorem Moves.requestArrives {u : State} {r : Request} (h : s.requestArrives p r = some u) :
    Moves s u := by
  unfold State.requestArrives at h
  split at h
  · rename_i active
    split at h
    · cases h
      exact Moves.protocolError s _ r active
    · cases h
      unfold State.handOver
      split
      · exact Moves.protocolError s _ r active
      · rename_i credits
        rw [Request.overruns_iff, not_or, not_and, not_and] at credits
        change Moves s (if (s.spentBy p r).duplicateTag p r = true then
          (s.spentBy p r).protocolError p .duplicateTag r else (s.spentBy p r).handOff p r)
        split
        · rw [State.protocolError_spentBy]
          exact Moves.protocolError s _ r active
        · rename_i tag
          rw [State.duplicateTag_iff] at tag
          refine Moves.handOff ⟨active, fun h => Nat.pos_of_ne_zero (credits.1 h),
            fun h => Nat.pos_of_ne_zero (credits.2 h), fun t ht e he clash => tag ⟨e, ?_, clash.1, ?_⟩⟩
          · rw [State.spentBy, State.setPort_tracker]
            exact he
          · rw [ht, clash.2]
  · cases h

end Requests

end Sys2Proof.Machine
end

section
/-! SUPPORT. Every command, and so every step, is a chain of moves (O55, O56, O57, O59). -/

namespace Sys2Proof.Machine

/-! ## Ports and grants -/

theorem Moves.grant {s u : State} (h : s.grant = some u) : Moves s u := by
  unfold State.grant at h
  split at h
  · rename_i free choice
    cases h
    exact .single (.granted free choice)
  · cases h

theorem Moves.writeBackoffEnd {s u : State} (h : s.writeBackoffEnd = some u) : Moves s u := by
  unfold State.writeBackoffEnd at h
  split at h
  · cases h
  · rename_i queue
    split at h
    · rename_i state
      split at h
      · cases h
        exact .single (.headReady queue state)
      · cases h
    all_goals cases h

theorem Moves.readBackoffEnd {s u : State} {p : PortId} {tag : Byte}
    (h : s.readBackoffEnd p tag = some u) : Moves s u := by
  unfold State.readBackoffEnd at h
  split at h
  · cases h
  · rename_i found
    split at h
    · rename_i state
      split at h
      · cases h
        exact .single (.readReady (List.mem_of_find?_eq_some found) state)
      · cases h
    · cases h

/-- A port sends only while it is ACTIVE (R145, R141). -/
theorem State.active_of_completionTurn {s : State} {p : PortId} (h : s.completionTurn p = true) :
    (s.port p).state = .active := by
  unfold State.completionTurn at h
  simp only [Bool.and_eq_true, decide_eq_true_eq] at h
  obtain ⟨⟨⟨active, _⟩, _⟩, _⟩ := h
  exact active

theorem State.active_of_creditTurn {s : State} {p : PortId} (h : s.creditTurn p = true) :
    (s.port p).state = .active := by
  unfold State.creditTurn at h
  simp only [Bool.and_eq_true, decide_eq_true_eq] at h
  obtain ⟨⟨⟨active, _⟩, _⟩, _⟩ := h
  exact active

theorem Moves.completionBegin {s u : State} {p : PortId} (h : s.completionBegin p = some u) :
    Moves s u := by
  unfold State.completionBegin at h
  split at h
  · rename_i turn
    split at h
    · cases h
    · rename_i oldest _ _
      cases h
      refine .head (.completionBegun p (s.completionAt oldest) (State.active_of_completionTurn turn))
        (Moves.quiet ?_)
      cases p <;> rfl
  · cases h

theorem Moves.completionSent {s u : State} {p : PortId} (h : s.completionSent p = some u) :
    Moves s u := by
  unfold State.completionSent at h
  split at h
  · rename_i link done
    cases h
    exact .single (.completionSent link done)
  · cases h

theorem Moves.creditBegin {s u : State} {p : PortId} (h : s.creditBegin p = some u) : Moves s u := by
  unfold State.creditBegin at h
  split at h
  · rename_i turn
    cases h
    exact .single (.creditBegun p (State.active_of_creditTurn turn))
  · cases h

theorem Moves.creditSent {s u : State} {p : PortId} (h : s.creditSent p = some u) : Moves s u := by
  unfold State.creditSent at h
  split at h
  · cases h
    exact .single (.linkIdle p)
  · cases h
  · cases h

/-! ## The start-up unit -/

theorem Moves.endLoad {s : State} (flash : List Byte) (loading : s.startUp.partState = .loading) :
    Moves s (s.endLoad flash) := by
  unfold State.endLoad
  dsimp only
  refine .tail (.tail ?_ (.linkUp .a)) (.linkUp .b)
  split
  · rename_i image checked
    obtain ⟨valid, sound⟩ := checkImage_sound checked
    refine .single (.configured _ _ _ _ _ loading valid
      (WindowTable.fresh (f := fun i => image.windows.getD i Window.zero) (fun i => ?_) rfl).1)
    rw [List.getD_eq_getElem?_getD]
    cases hw : image.windows[i]? with
    | none => exact Window.zero_fresh
    | some w => exact sound w (List.mem_of_getElem? hw)
  · exact .head (.configured _ _ _ _ _ loading Params.default_valid
      (WindowTable.fresh (c := CatchAll.fallback) (fun _ : Nat => Window.zero_fresh) rfl).1)
      (Moves.quiet (State.logEvent_bare _ _))

/-- While the power-on reset is asserted the blocks stand at their power-on values (R184). -/
theorem Moves.heldInReset (s : State) : Moves s s.heldInReset :=
  .tail (.single .powerOn) (.quiet rfl)

/-! ## Maintenance commands -/

theorem Moves.whenRunning {s : State} {r : State × Answer}
    (h : s.startUp.partState = .running → Moves s r.1) : Moves s (s.whenRunning r).1 := by
  unfold State.whenRunning
  split
  · rename_i running
    exact h running
  · exact .refl

theorem Moves.withWindow {s : State} {f : WindowId → State × Answer} (n : Byte)
    (h : ∀ w, Moves s (f w).1) : Moves s (s.withWindow n f).1 := by
  unfold State.withWindow
  split
  · exact .refl
  · exact h _

/-- A window's record is written whose streams, if it becomes DISABLED, are gone (R12 to R15). -/
theorem Moves.setTable (s : State) {t : WindowTable} (sound : s.table.Sound → t.Sound)
    (used : ∀ n : WindowId, t.windows[n].state = .disabled → s.table.windows[n].state = .disabled ∨
      ∀ (k : StreamId) (st : Stream), s.readAhead.streams[k] = some st → st.window ≠ n) :
    Moves s { s with table := t } :=
  .single (.table t sound used)

theorem Moves.setWindowState (s : State) (w : WindowId) {state : WindowState} (thawed : state ≠ .frozen)
    (used : state = .disabled → ∀ (k : StreamId) (st : Stream),
      s.readAhead.streams[k] = some st → st.window ≠ w) :
    Moves s { s with table := s.table.setState w state } := by
  refine Moves.setTable s (fun sound => sound.setState w fun h => absurd h thawed) fun n h => ?_
  rw [WindowTable.setState_windows] at h
  split at h
  · rename_i hn
    subst hn
    exact .inr (used h)
  · exact .inl h

theorem Moves.setWindow (s : State) (w : WindowId) {fields : WindowFields}
    (valid : fields.valid = true) : Moves s (s.setWindow w fields).1 := by
  unfold State.setWindow
  split
  · rename_i disabled
    refine Moves.setTable s (fun sound => sound.set w ((Window.sound_iff _).2
      ⟨valid, Nat.zero_le _, fun h => by cases h⟩)) fun n h => .inl ?_
    rw [set_getElem_fin] at h
    split at h
    · rename_i hn
      rw [hn]
      exact disabled
    · exact h
  · exact .refl

theorem Moves.enableWindow (s : State) (w : WindowId) : Moves s (s.enableWindow w).1 := by
  unfold State.enableWindow
  split
  · exact Moves.setWindowState s w (by simp) (by simp)
  · exact .refl
  · exact .refl

theorem Moves.thawWindow (s : State) (w : WindowId) : Moves s (s.thawWindow w).1 := by
  unfold State.thawWindow
  split
  · exact Moves.setWindowState s w (by simp) (by simp)
  · exact .refl
  · exact .refl

/-- The streams of a window that becomes DISABLED are retired first (R13, R89). -/
theorem Moves.windowDisabled (s : State) (w : WindowId) : Moves s (s.windowDisabled w) := by
  refine (Moves.retireWhere s fun st => decide (st.window = w)).trans
    ((Moves.setWindowState _ w (state := .disabled) (by simp) fun _ k st active => ?_).trans
      (Moves.topUp _ rfl))
  dsimp only at active
  rw [ReadAhead.retireWhere_streams, Option.filter_eq_some_iff] at active
  simpa using active.2

theorem Moves.disableWindow (s : State) (w : WindowId) : Moves s (s.disableWindow w).1 := by
  unfold State.disableWindow
  split
  · exact .refl
  · exact Moves.windowDisabled s w
  · exact Moves.windowDisabled s w

theorem Moves.setParams (s : State) {new : Params} (valid : new.valid = true) :
    Moves s (s.setParams new).1 := by
  unfold State.setParams
  split
  · exact .refl
  · rename_i allowed
    refine .head (.params new valid fun changes => ?_) ?_
    · rw [not_and, Bool.not_eq_true] at allowed
      exact allowed changes
    · unfold State.expireAtOnce
      split
      · exact .refl
      · exact (Moves.retireWhere _ _).trans (Moves.topUp _ rfl)

theorem Moves.setCatchall (s : State) (mode : CatchMode) (retry : RetryLimit) :
    Moves s (s.setCatchall mode retry) :=
  Moves.setTable s (fun sound => ⟨sound.1, Nat.zero_le _⟩) fun _ h => .inl h

theorem Moves.reclaimSlots (s : State) : Moves s s.reclaimSlots.1 := by
  have freed (u : State) (same : u.bare = s.bare) : Moves s
      { u with memPort :=
        { u.memPort with slots := mapVec Slot.reclaimed u.memPort.slots } }.weighReads := by
    refine (Moves.quiet same).trans (.single (.reclaimed _ fun i => ?_))
    rw [mapVec_getElem_fin, Slot.reclaimed]
    split
    · rename_i orphaned
      exact .inr ⟨orphaned, rfl⟩
    · exact .inl rfl
  unfold State.reclaimSlots
  dsimp only
  split
  · exact freed _ (s.logEvent_bare _)
  · exact freed s rfl

theorem Moves.popLog (s : State) : Moves s s.popLog.1 := by
  unfold State.popLog
  split
  · exact .refl
  · exact .quiet rfl

theorem Moves.beginQuiesce (s : State) : Moves s s.beginQuiesce.1 := by
  unfold State.beginQuiesce
  split
  · exact .quiet (State.weighQuiesce_bare _)
  · exact .refl
  · exact .refl

theorem Moves.resume (s : State) : Moves s s.resume.1 := by
  unfold State.resume
  split
  · exact .refl
  · exact .quiet rfl
  · exact .quiet rfl

/-! ## Every command -/

/-- A command leaves the part as it was but for what no law reads, or at its power-on values, or at the end of a chain
of moves with its quiesce state and alert line settled. -/
inductive Taken (s : State) : State → Prop
  | ignored {t : State} (same : t.bare = s.bare) (quiesce : t.quiesce = s.quiesce) : Taken s t
  | poweredOn {t : State} (moves : Moves s t) (quiesce : t.quiesce = .running) : Taken s t
  | settled {u : State} (moves : Moves s u) : Taken s u.settle

theorem Taken.of_take {s s' t : State} {event : Option State} (h : s'.take event = .next t)
    (same : s'.bare = s.bare) (quiesce : s'.quiesce = s.quiesce)
    (moves : ∀ u, event = some u → Moves s' u) : Taken s t := by
  obtain rfl | ⟨u, hu, _, rfl⟩ := State.take_eq_next h
  · exact .ignored same quiesce
  · exact .settled ((Moves.quiet same).trans (moves u hu))

theorem Taken.of_event {s t : State} {event : Option State} (h : s.take event = .next t)
    (moves : ∀ u, event = some u → Moves s u) : Taken s t :=
  .of_take h rfl rfl moves

theorem Taken.of_command {s t : State} {i : Instr} {r : State × Answer}
    (h : s.takeCommand i r = .next t) (moves : Moves s r.1) : Taken s t := by
  refine Taken.of_event h fun u hu => ?_
  split at hu
  · cases hu
    exact moves.trans (Moves.quiet (State.answered_bare _ _ _))
  all_goals cases hu

theorem Taken.refl (s : State) : Taken s s :=
  .ignored rfl rfl

/-- A command of the maintenance port. -/
theorem exec_maintenance_taken {i : Instr} {s t : State} (h : exec i s = .next t)
    (command : i.commandPart ≠ []) : Taken s t := by
  cases i with
  | unknownCommand code =>
    rw [exec_unknownCommand, execUnknownCommand] at h
    split at h
    · cases h
      exact .refl s
    · exact .of_command h .refl
  | getStatus => exact .of_command h .refl
  | getWindow n => exact .of_command h (.whenRunning fun _ => .withWindow n fun _ => .refl)
  | setWindow n record =>
    refine .of_command h (.whenRunning fun _ => .withWindow n fun w => ?_)
    split
    · exact .refl
    · rename_i fields
      exact .setWindow s w (windowFieldsOf_valid fields)
  | enableWindow n => exact .of_command h (.whenRunning fun _ => .withWindow n (.enableWindow s))
  | disableWindow n => exact .of_command h (.whenRunning fun _ => .withWindow n (.disableWindow s))
  | thawWindow n => exact .of_command h (.whenRunning fun _ => .withWindow n (.thawWindow s))
  | getCatchall => exact .of_command h (.whenRunning fun _ => .refl)
  | setCatchall mode retryCode =>
    refine .of_command h (.whenRunning fun _ => ?_)
    split
    · exact .setCatchall s _ _
    · exact .refl
  | getParams => exact .of_command h (.whenRunning fun _ => .refl)
  | setParams params =>
    refine .of_command h (.whenRunning fun _ => ?_)
    split
    · exact .refl
    · rename_i valid
      exact .setParams s (paramsOf_valid valid)
  | setAlertMask mask =>
    refine .of_command h (.whenRunning fun _ => ?_)
    split
    · exact .refl
    · exact .quiet rfl
  | peekLog => exact .of_command h (.whenRunning fun _ => .refl)
  | popLog => exact .of_command h (.whenRunning fun _ => .popLog s)
  | clearOverflow => exact .of_command h (.whenRunning fun _ => .quiet rfl)
  | reclaimSlots => exact .of_command h (.whenRunning fun _ => .reclaimSlots s)
  | quiesce => exact .of_command h (.whenRunning fun _ => .beginQuiesce s)
  | resume => exact .of_command h (.whenRunning fun _ => .resume s)
  | _ => exact absurd rfl command

/-- What any command does. -/
theorem exec_taken {i : Instr} {s t : State} (h : exec i s = .next t) : Taken s t := by
  cases i with
  | powerOnResetAssert =>
    rw [exec_powerOnResetAssert, execPowerOnResetAssert] at h
    split at h <;> cases h
    · exact .refl s
    · exact .poweredOn (.heldInReset s) rfl
  | powerOnResetRelease =>
    rw [exec_powerOnResetRelease, execPowerOnResetRelease] at h
    split at h <;> cases h
    · exact .poweredOn (.single .powerOn) rfl
    · exact .refl s
  | loadEnd flash =>
    refine .of_event h fun u hu => ?_
    split at hu <;> cases hu
    rename_i loading
    exact .endLoad flash loading
  | warmResetAssert =>
    rw [exec_warmResetAssert, execWarmResetAssert] at h
    split at h
    · cases h
      exact .refl s
    · refine .of_take h (s.setWarmInput_bare true) rfl fun u hu => ?_
      cases hu
      exact .single .warmReset
  | warmResetRelease =>
    rw [exec_warmResetRelease, execWarmResetRelease] at h
    split at h
    · refine .of_take h (s.setWarmInput_bare false) rfl fun u hu => ?_
      cases hu
      exact .tail (.single (.linkUp .a)) (.linkUp .b)
    · cases h
      exact .refl s
  | portResetAssert p =>
    rw [exec_portResetAssert, execPortResetAssert] at h
    split at h
    · cases h
      exact .refl s
    · refine .of_take h (s.setResetInput_bare p true) (by simp) fun u hu => ?_
      cases hu
      exact .portDown _ p
  | linkReadyLoss p =>
    rw [exec_linkReadyLoss, execLinkReadyLoss] at h
    split at h
    · refine .of_take h (s.setLinkReady_bare p false) (by simp) fun u hu => ?_
      cases hu
      exact .portDown _ p
    · cases h
      exact .refl s
  | portResetRelease p =>
    rw [exec_portResetRelease, execPortResetRelease] at h
    split at h
    · refine .of_take h (s.setResetInput_bare p false) (by simp) fun u hu => ?_
      cases hu
      exact .single (.linkUp p)
    · cases h
      exact .refl s
  | linkReadyArrival p =>
    rw [exec_linkReadyArrival, execLinkReadyArrival] at h
    split at h
    · cases h
      exact .refl s
    · refine .of_take h (s.setLinkReady_bare p true) (by simp) fun u hu => ?_
      cases hu
      exact .single (.linkUp p)
  | requestRead p rest => exact .of_event h fun _ hu => .requestArrives hu
  | requestWrite p rest => exact .of_event h fun _ hu => .requestArrives hu
  | requestFence p rest => exact .of_event h fun _ hu => .requestArrives hu
  | requestOfNoKnownKind p message => exact .of_event h fun _ hu => .requestArrives hu
  | grant => exact .of_event h fun _ hu => .grant hu
  | response message =>
    rw [exec_response, execResponse] at h
    refine .of_event h fun u hu => ?_
    cases hu
    exact .respond s _
  | slotDeadline i => exact .of_event h fun _ hu => .slotDeadline hu
  | writeBackoffEnd => exact .of_event h fun _ hu => .writeBackoffEnd hu
  | readBackoffEnd p tag => exact .of_event h fun _ hu => .readBackoffEnd hu
  | fetchBackoffEnd i => exact .of_event h fun _ hu => .fetchBackoffEnd hu
  | idleExpiry k => exact .of_event h fun _ hu => .idleExpiry hu
  | completionBegin p => exact .of_event h fun _ hu => .completionBegin hu
  | completionSent p => exact .of_event h fun _ hu => .completionSent hu
  | creditBegin p => exact .of_event h fun _ hu => .creditBegin hu
  | creditSent p => exact .of_event h fun _ hu => .creditSent hu
  | selectAssert =>
    rw [exec_selectAssert, execSelectAssert] at h
    split at h
    · cases h
      exact .refl s
    · refine .of_take h (s.setSelect_bare true) rfl fun u hu => ?_
      cases hu
      exact .quiet rfl
  | selectRelease =>
    rw [exec_selectRelease, execSelectRelease] at h
    split at h
    · refine .of_take h (s.setSelect_bare false) rfl fun u hu => ?_
      cases hu
      exact .quiet rfl
    · cases h
      exact .refl s
  | lastBitOfResponseSent =>
    refine .of_event h fun u hu => ?_
    split at hu <;> cases hu
    exact .quiet rfl
  | _ => exact exec_maintenance_taken h (List.cons_ne_nil _ _)

/-! ## Every step -/

/-- What any step does. -/
theorem step_taken {s t : State} (h : step s = .next t) : Taken s t := by
  unfold step at h
  split at h
  · cases h
    refine .ignored s.tick_bare ?_
    unfold State.tick
    split <;> rfl
  · rename_i c rest _
    have taken : Moves s { s with pending := rest } := .quiet rfl
    cases exec_taken h with
    | ignored same quiesce => exact .ignored same quiesce
    | poweredOn moves quiesce => exact .poweredOn (taken.trans moves) quiesce
    | settled moves => exact .settled (taken.trans moves)

/-- A step is a chain of moves. -/
theorem step_moves {s t : State} (h : step s = .next t) : Moves s t := by
  cases step_taken h with
  | ignored same _ => exact .quiet same
  | poweredOn moves _ => exact moves
  | settled moves => exact .tail moves (.quiet (State.settle_bare _))

/-- What every move keeps, every step keeps. -/
theorem stepKeeps_of_move {P : State → Prop} (inv : State → Bool) (inv_iff : ∀ s, inv s = true ↔ P s)
    (keeps : ∀ {s u}, Move s u → P s → P u) : StepKeeps inv := by
  intro s t hs h
  rw [inv_iff] at hs ⊢
  have moves := step_moves h
  clear h
  induction moves with
  | refl => exact hs
  | tail _ move ih => exact keeps move ih

end Sys2Proof.Machine
end

section
/-! SUPPORT. The laws of the quiesce state, the passed-over count and the write slot that every step keeps (O55). -/

namespace Sys2Proof.Machine

/-! ## The quiesce state -/

/-- No work is held, whatever the inputs, the log, the maintenance port and the quiesce state. -/
theorem State.holdsNoWork_of_bare {s t : State} (same : t.bare = s.bare) :
    t.holdsNoWork = s.holdsNoWork := by
  change t.bare.holdsNoWork = s.bare.holdsNoWork
  rw [same]

theorem State.quiesceFollows_iff (s : State) : s.quiesceFollows = true ↔
    (s.quiesce = .quiescing → s.holdsNoWork = false) ∧ (s.quiesce = .quiesced → s.holdsNoWork = true) := by
  unfold State.quiesceFollows
  cases s.quiesce <;> simp

/-- The end of an event sets the quiesce state by its conditions (R179, R180). -/
theorem State.settle_quiesceFollows (s : State) : s.settle.quiesceFollows = true := by
  rw [State.quiesceFollows_iff, State.settle_quiesce, State.settle_holdsNoWork]
  split
  · simp
  · cases s.holdsNoWork <;> simp

theorem stepKeepsQuiesceFollows : StepKeeps State.quiesceFollows := by
  intro s t hs h
  cases step_taken h with
  | ignored same quiesce =>
    rw [State.quiesceFollows_iff] at hs ⊢
    rw [quiesce, State.holdsNoWork_of_bare same]
    exact hs
  | poweredOn _ quiesce => simp [State.quiesceFollows_iff, quiesce]
  | settled _ => exact State.settle_quiesceFollows _

/-! ## The slots of a move -/

/-- What one move can do to the slots and the passed-over count. -/
inductive SlotTurn (s : State) : Vector Slot 4 → Nat → Prop
  | kept : SlotTurn s s.memPort.slots s.memPort.passedOver
  | emptied {slots : Vector Slot 4} (free : ∀ i : SlotId, slots[i] = .free) : SlotTurn s slots 0
  | disowned (gone : List Nat) :
      SlotTurn s (mapVec (Slot.withoutEntries gone) s.memPort.slots) s.memPort.passedOver
  | granted {i : SlotId} {g : Grant} (free : s.memPort.slots[i] = .free)
      (choice : s.chooseGrant = some g) :
      SlotTurn s
        (s.memPort.slots.set i (s.grantedSlot (s.grantParts i g).1 (s.grantParts i g).2.1))
        (s.passedOverAfter g)
  | vacated {i : SlotId} {owner : SlotOwner} {line : Addr} {deadline : Timer} {slot : Slot}
      (busy : s.memPort.slots[i] = .busy owner line deadline)
      (slot_eq : slot = .free ∨ slot = .orphaned owner.kind line) :
      SlotTurn s (s.memPort.slots.set i slot) s.memPort.passedOver
  | reclaimed {slots : Vector Slot 4} (freed : ∀ i : SlotId, slots[i] = s.memPort.slots[i] ∨
      ((s.memPort.slots[i]).isOrphaned = true ∧ slots[i] = .free)) :
      SlotTurn s slots s.memPort.passedOver

/-- The lowest FREE slot is FREE (R109). -/
theorem MemPort.lowestFree_some {m : MemPort} {i : SlotId} (h : m.lowestFree = some i) :
    m.slots[i] = .free := by
  have free := List.find?_some h
  unfold Slot.isFree at free
  split at free
  · assumption
  · cases free

theorem State.issueOwner_memPort (s : State) (g : Grant) : (s.issueOwner g).memPort = s.memPort := by
  unfold State.issueOwner
  split
  · split <;> rfl
  · rfl
  · rfl

/-- Telling an owner touches no slot. -/
theorem Told.memPort {s f v : State} {owner : SlotOwner} (told : Told s f owner v) :
    v.memPort = f.memPort := by
  cases told with
  | nobody _ => rfl
  | ended place status data => exact State.finish_memPort ..
  | waits _ _ _ _ => rfl
  | departs d g _ => exact State.depart_memPort ..
  | headWaits _ _ _ => rfl
  | fetchEnds status data _ _ => exact foldl_keeps _ State.memPort (fun _ _ => by simp) _ f
  | fetchWaits _ _ _ => rfl

theorem State.memPort_slots_of_bare {s u : State} (same : u.bare = s.bare) :
    u.memPort.slots = s.memPort.slots ∧ u.memPort.passedOver = s.memPort.passedOver := by
  have memPort := congrArg State.memPort same
  have slots := congrArg MemPort.slots memPort
  have passedOver := congrArg MemPort.passedOver memPort
  exact ⟨slots, passedOver⟩

theorem SlotTurn.of_memPort {s u : State} (h : u.memPort = s.memPort) :
    SlotTurn s u.memPort.slots u.memPort.passedOver := by
  rw [h]
  exact .kept

theorem Move.slotTurn {s u : State} (move : Move s u) :
    SlotTurn s u.memPort.slots u.memPort.passedOver := by
  cases move with
  | quiet same =>
    obtain ⟨slots, passed⟩ := State.memPort_slots_of_bare same
    rw [slots, passed]
    exact .kept
  | params new _ _ =>
    refine .of_memPort ?_
    unfold State.replaceParams
    dsimp only
    split <;> rfl
  | powerOn => exact .emptied fun i => vecOf_getElem_fin _ _ _
  | warmReset =>
    rw [State.warmReset, State.logLoss_memPort]
    exact .emptied fun i => vecOf_getElem_fin _ _ _
  | linkUp p => exact .of_memPort (s.linkUp_memPort p)
  | cut p state _ _ =>
    rw [State.cut, State.setPort_memPort]
    exact .disowned _
  | readJoins _ _ _ =>
    exact .of_memPort (by simp [State.spentBy, State.addRead])
  | doneJoins _ _ _ _ _ _ _ _ _ =>
    refine .of_memPort ?_
    unfold State.owedBack
    split <;> simp [State.spentBy]
  | attaches _ _ _ _ _ => exact .of_memPort (by simp [State.spentBy, State.addRead])
  | writeDropped _ _ _ => exact .of_memPort (by simp [State.spentBy])
  | writeJoins _ _ _ _ _ _ _ =>
    exact .of_memPort (by rw [State.takePlace_eq]; simp [State.spentBy])
  | fenceJoins _ _ _ _ => exact .of_memPort (by simp [State.spentBy])
  | granted free choice =>
    rw [State.grantTo, State.issueOwner_memPort]
    exact .granted (MemPort.lowestFree_some free) choice
  | @told i _ _ _ slot _ _ busy slot_eq told weighed =>
    have memPort : u.memPort = (s.setSlot i slot).memPort := by
      obtain ⟨_, rfl⟩ | rfl := weighed
      · exact told.memPort
      · exact told.memPort
    rw [memPort]
    exact .vacated busy slot_eq
  | reclaimed slots freed => exact .reclaimed freed
  | completionBegun p _ _ => exact .of_memPort (s.setPort_memPort p _)
  | completionSent _ _ =>
    refine .of_memPort ?_
    unfold State.freeEntry
    split <;> simp
  | creditBegun p _ => exact .of_memPort (s.setPort_memPort p _)
  | linkIdle p => exact .of_memPort (s.setPort_memPort p _)
  | _ => exact .kept

/-! ## The passed-over count -/

/-- A demand read passes a waiting write only below the limit (R123, R124). -/
theorem State.passedOverAfter_le {s : State} {g : Grant} (choice : s.chooseGrant = some g)
    (bounded : s.memPort.passedOver ≤ 4) : s.passedOverAfter g ≤ 4 := by
  cases g with
  | write head => exact Nat.zero_le _
  | fetch line => exact bounded
  | demand e r =>
    unfold State.passedOverAfter
    dsimp only
    split
    · rename_i waiting
      obtain ⟨head, candidate⟩ := Option.isSome_iff_exists.1 waiting
      unfold State.chooseGrant at choice
      rw [candidate] at choice
      split at choice
      · split at choice
        · cases choice
        · rename_i below
          rw [not_or, not_le] at below
          exact below.2
      · cases choice
      · rename_i none _
        cases none
      · rename_i none _
        cases none
    · exact bounded

theorem Move.keeps_passedOver {s u : State} (move : Move s u) (bounded : s.memPort.passedOver ≤ 4) :
    u.memPort.passedOver ≤ 4 := by
  have turn := move.slotTurn
  generalize u.memPort.slots = slots at turn
  generalize u.memPort.passedOver = passed at turn ⊢
  cases turn with
  | emptied _ => exact Nat.zero_le _
  | granted _ choice => exact State.passedOverAfter_le choice bounded
  | _ => exact bounded

/-! ## One write slot -/

/-- The slots of the memory port in order. -/
theorem MemPort.slots_eq (m : MemPort) :
    m.slots.toArray.toList = allSlots.map fun i => m.slots[i] := by
  refine List.ext_getElem (by simp [allSlots]) fun n h₁ h₂ => ?_
  have hn : n < 4 := by simpa using h₁
  match n, hn with
  | 0, _ => rfl
  | 1, _ => rfl
  | 2, _ => rfl
  | 3, _ => rfl

/-- A count of slots is over slots 0 to 3. -/
theorem MemPort.count_eq (m : MemPort) (f : Slot → Bool) :
    m.count f = allSlots.countP fun i => f m.slots[i] := by
  rw [MemPort.count, MemPort.slots_eq, List.countP_map]
  rfl

/-- At most one of a list of distinct elements counts exactly when any two that count are one. -/
theorem countP_le_one_iff {α : Type} (f : α → Bool) (xs : List α) (nodup : xs.Nodup) :
    xs.countP f ≤ 1 ↔ ∀ i ∈ xs, ∀ j ∈ xs, f i = true → f j = true → i = j := by
  induction xs with
  | nil => simp
  | cons x xs ih =>
    rw [List.nodup_cons] at nodup
    obtain ⟨new, nodup⟩ := nodup
    rw [List.countP_cons]
    by_cases hx : f x = true
    · have none_iff : xs.countP f + 1 ≤ 1 ↔ xs.countP f = 0 := by omega
      rw [if_pos hx, none_iff, List.countP_eq_zero]
      simp only [List.mem_cons, forall_eq_or_imp]
      constructor
      · intro none
        refine ⟨⟨fun _ _ => trivial, fun j hj _ hf => absurd hf (none j hj)⟩,
          fun i hi => ⟨fun hf => absurd hf (none i hi), fun j _ hf => absurd hf (none i hi)⟩⟩
      · rintro ⟨⟨-, one⟩, -⟩ j hj hf
        exact new (one j hj hx hf ▸ hj)
    · rw [if_neg hx, Nat.add_zero, ih nodup]
      simp only [List.mem_cons, forall_eq_or_imp]
      constructor
      · intro one
        exact ⟨⟨fun _ _ => trivial, fun _ _ hf => absurd hf hx⟩,
          fun i hi => ⟨fun _ hf => absurd hf hx, fun j hj => one i hi j hj⟩⟩
      · rintro ⟨-, one⟩ i hi j hj
        exact (one i hi).2 j hj

/-- Any two slots that hold a write are one slot (R27, R108). -/
def OneWriteSlot (slots : Vector Slot 4) : Prop :=
  ∀ i j : SlotId, (slots[i]).holdsWrite = true → (slots[j]).holdsWrite = true → i = j

theorem State.oneWriteSlot_iff (s : State) : s.oneWriteSlot = true ↔ OneWriteSlot s.memPort.slots := by
  rw [State.oneWriteSlot, decide_eq_true_iff, MemPort.count_eq,
    countP_le_one_iff _ _ (by decide : allSlots.Nodup)]
  exact ⟨fun one i j => one i (mem_allSlots i) j (mem_allSlots j), fun one i _ j _ => one i j⟩

/-- No further slot holds a write. -/
theorem OneWriteSlot.mono {before after : Vector Slot 4} (one : OneWriteSlot before)
    (h : ∀ i : SlotId, (after[i]).holdsWrite = true → (before[i]).holdsWrite = true) :
    OneWriteSlot after :=
  fun i j hi hj => one i j (h i hi) (h j hj)

theorem Slot.withoutEntries_holdsWrite (gone : List Nat) (slot : Slot) :
    (slot.withoutEntries gone).holdsWrite = slot.holdsWrite := by
  unfold Slot.withoutEntries
  split <;> rfl

/-- The head record is granted a slot only while no slot holds a write (R27). -/
theorem State.headCandidate_some {s : State} {head : WriteRecord} (h : s.headCandidate = some head) :
    (∃ rest, s.queue = head :: rest) ∧ head.state = .queued ∧
      ∀ i : SlotId, (s.memPort.slots[i]).holdsWrite = false := by
  unfold State.headCandidate at h
  split at h
  · cases h
  · rename_i queue
    split at h
    · rename_i ready
      cases h
      exact ⟨⟨_, queue⟩, ready.1, (MemPort.count_eq_zero _ _).1 ready.2.1⟩
    · cases h

theorem State.chooseGrant_write {s : State} {head : WriteRecord} (h : s.chooseGrant = some (.write head)) :
    s.headCandidate = some head := by
  unfold State.chooseGrant at h
  split at h
  · split at h
    · cases h
      assumption
    · cases h
  · cases h
    assumption
  · cases h
  · rw [Option.map_eq_some_iff] at h
    obtain ⟨_, _, h⟩ := h
    cases h

theorem Move.keeps_oneWriteSlot {s u : State} (move : Move s u) (one : OneWriteSlot s.memPort.slots) :
    OneWriteSlot u.memPort.slots := by
  have turn := move.slotTurn
  generalize u.memPort.slots = slots at turn ⊢
  generalize u.memPort.passedOver = passed at turn
  cases turn with
  | kept => exact one
  | emptied free => exact one.mono fun i h => by rw [free i] at h; cases h
  | disowned gone =>
    exact one.mono fun i h => by rwa [mapVec_getElem_fin, Slot.withoutEntries_holdsWrite] at h
  | @granted i g free choice =>
    cases g with
    | write head =>
      obtain ⟨_, _, none⟩ := State.headCandidate_some (State.chooseGrant_write choice)
      have only (j : SlotId) (h : ((s.memPort.slots.set i
          (s.grantedSlot (s.grantParts i (.write head)).1 (s.grantParts i (.write head)).2.1))[j]).holdsWrite =
          true) : j = i := by
        by_contra hj
        rw [set_getElem_fin_other _ _ _ _ hj, none j] at h
        cases h
      exact fun j k hj hk => (only j hj).trans (only k hk).symm
    | demand e r =>
      refine one.mono fun j h => ?_
      rw [set_getElem_fin] at h
      split at h
      · cases h
      · exact h
    | fetch line =>
      refine one.mono fun j h => ?_
      rw [set_getElem_fin] at h
      split at h
      · cases h
      · exact h
  | @vacated i owner line deadline slot busy slot_eq =>
    refine one.mono fun j h => ?_
    rw [set_getElem_fin] at h
    split at h
    · rename_i hj
      subst hj
      rw [busy]
      rcases slot_eq with rfl | rfl
      · cases h
      · cases owner with
        | write place => rfl
        | demand entry => cases h
        | fetch line => cases h
    · exact h
  | reclaimed freed =>
    refine one.mono fun i h => ?_
    rcases freed i with same | ⟨_, free⟩
    · rwa [same] at h
    · rw [free] at h
      cases h

/-- Settles O55: the quiesce state is set at the end of every event, and every move keeps the two laws of the slots. -/
theorem stepKeepsQuiesceAndSlots : Obligations.StepKeepsQuiesceAndSlots :=
  ⟨stepKeepsQuiesceFollows,
    stepKeeps_of_move _ (fun _ => decide_eq_true_iff) Move.keeps_passedOver,
    stepKeeps_of_move _ State.oneWriteSlot_iff Move.keeps_oneWriteSlot⟩

end Sys2Proof.Machine
end

section
/-! SUPPORT. What the departures of an event do to ports and entries outside their states (O30). -/

namespace Sys2Proof.Machine

/-! ## Ports that change in their lists alone -/

/-- Each port is as it was but for its completion order list. -/
def State.OnlyDone (s u : State) : Prop :=
  ∀ p, u.port p = { s.port p with done := (u.port p).done }

theorem State.OnlyDone.refl (s : State) : s.OnlyDone s := fun _ => rfl

theorem State.OnlyDone.trans {s t u : State} (first : s.OnlyDone t) (second : t.OnlyDone u) :
    s.OnlyDone u := by
  intro p
  rw [second p, first p]

/-- Ports that are equal differ in no list. -/
theorem State.OnlyDone.of_port {s u : State} (h : ∀ p, u.port p = s.port p) : s.OnlyDone u :=
  fun p => by rw [h p]

theorem State.onlyDone_foldl {β : Type} (f : State → β → State) (h : ∀ (t : State) b, t.OnlyDone (f t b))
    (l : List β) (s : State) : s.OnlyDone (l.foldl f s) := by
  induction l generalizing s with
  | nil => exact .refl s
  | cons b l ih => exact (h s b).trans (ih (f s b))

theorem State.onlyDone_finish (s : State) (place : Nat) (status : Status) (data : List Byte) :
    s.OnlyDone (s.finish place status data) := by
  intro p
  rcases s.finish_port place status data p with h | h <;> rw [h]

theorem State.onlyDone_endEntry (s : State) (r : Report) : s.OnlyDone (s.endEntry r) := by
  unfold State.endEntry
  split
  · exact .refl s
  · exact s.onlyDone_finish _ _ _

theorem State.onlyDone_finishFence (s : State) (place : Nat) (f : FenceFields) :
    s.OnlyDone (s.finishFence place f) := by
  rw [State.finishFence_eq]
  exact s.onlyDone_finish place f.status []

theorem State.onlyDone_finishFences (s : State) (done : List (Nat × FenceFields)) :
    s.OnlyDone (s.finishFences done) :=
  State.onlyDone_foldl _ (fun t (x : Nat × FenceFields) => t.onlyDone_finishFence x.1 x.2) done s

/-! ## Entries that change in their states alone -/

/-- What names an entry: its place, port and tag. -/
def Entry.name (e : Entry) : Nat × PortId × Byte :=
  (e.place, e.port, e.tag)

/-- An event that leaves the names of all entries. -/
def State.SameNames (s u : State) : Prop :=
  u.tracker.map Entry.name = s.tracker.map Entry.name

theorem map_name_congr {before : List Entry} {f : Entry → Entry} (h : ∀ e, (f e).name = e.name) :
    (before.map f).map Entry.name = before.map Entry.name := by
  rw [List.map_map]
  exact List.map_congr_left fun e _ => h e

theorem setEntryState_names (tracker : List Entry) (place : Nat) (state : EntryState) :
    (setEntryState tracker place state).map Entry.name = tracker.map Entry.name := by
  refine map_name_congr fun e => ?_
  split <;> rfl

theorem State.sameNames_finish (s : State) (place : Nat) (status : Status) (data : List Byte) :
    s.SameNames (s.finish place status data) := by
  rw [State.SameNames, State.finish_tracker]
  exact setEntryState_names _ _ _

theorem State.sameNames_foldl {β : Type} (f : State → β → State) (h : ∀ (t : State) b, t.SameNames (f t b))
    (l : List β) (s : State) : s.SameNames (l.foldl f s) :=
  foldl_keeps f (fun t => t.tracker.map Entry.name) h l s

theorem State.sameNames_endEntry (s : State) (r : Report) : s.SameNames (s.endEntry r) := by
  unfold State.endEntry
  split
  · rfl
  · exact s.sameNames_finish _ _ _

theorem State.sameNames_finishFence (s : State) (place : Nat) (f : FenceFields) :
    s.SameNames (s.finishFence place f) := by
  rw [State.finishFence_eq]
  exact s.sameNames_finish place f.status []

theorem State.sameNames_finishFences (s : State) (done : List (Nat × FenceFields)) :
    s.SameNames (s.finishFences done) :=
  State.sameNames_foldl _ (fun t (x : Nat × FenceFields) => t.sameNames_finishFence x.1 x.2) done s

theorem State.sameNames_weighReads (s : State) : s.SameNames s.weighReads :=
  map_name_congr fun e => by simp [Entry.name]

/-! ## Departures -/

/-- The state in which the records of an event have left the queue and every horizon (R41, R64). -/
def State.departing (s : State) (rest : List WriteRecord) (rs : List Report) : State :=
  let owed := rs.foldl (fun t r => t.oweWrite r.1.port) { s with queue := rest }
  { owed with
    tracker := owed.tracker.map (Entry.reported rs)
    readAhead := owed.readAhead.dropRecords (rs.map fun r => r.1.place) }

/-- The fences that an event empties, with their fields as updated, in tracker order (R100). -/
def State.emptied (s : State) (rs : List Report) : List (Nat × FenceFields) :=
  s.tracker.filterMap fun e =>
    match e.completedBy rs with
    | some f => some (e.place, f)
    | none => none

/-- The departures of an event in their order (log 22). -/
theorem State.depart_eq (s : State) (rest : List WriteRecord) (rs : List Report) :
    s.depart rest rs =
      ((rs.foldl State.endEntry (s.departing rest rs)).finishFences (s.emptied rs)).weighReads := rfl

/-- Each departure owes one write credit to its port (R140). -/
theorem State.port_foldl_oweWrite (rs : List Report) (s : State) (p : PortId) :
    (rs.foldl (fun t r => t.oweWrite r.1.port) s).port p = { s.port p with
      writeOwed := (s.port p).writeOwed + rs.countP fun r => r.1.port = p } := by
  induction rs generalizing s with
  | nil => rfl
  | cons r rs ih =>
    rw [List.foldl_cons, ih, List.countP_cons]
    by_cases hp : r.1.port = p
    · subst hp
      rw [State.oweWrite, State.setPort_port_same, Port.oweWrite]
      simp only [decide_true, if_true]
      congr 1
      omega
    · rw [State.oweWrite, State.setPort_port_other _ _ _ _ (Ne.symm hp)]
      simp [hp]

theorem State.departing_port (s : State) (rest : List WriteRecord) (rs : List Report) (p : PortId) :
    (s.departing rest rs).port p = { s.port p with
      writeOwed := (s.port p).writeOwed + rs.countP fun r => r.1.port = p } :=
  State.port_foldl_oweWrite rs { s with queue := rest } p

theorem State.departing_tracker (s : State) (rest : List WriteRecord) (rs : List Report) :
    (s.departing rest rs).tracker = s.tracker.map (Entry.reported rs) :=
  congrArg (List.map (Entry.reported rs))
    (foldl_keeps _ State.tracker (fun _ _ => by simp) rs { s with queue := rest })

theorem State.departing_readAhead (s : State) (rest : List WriteRecord) (rs : List Report) :
    (s.departing rest rs).readAhead = s.readAhead.dropRecords (rs.map fun r => r.1.place) :=
  congrArg (fun ra : ReadAhead => ra.dropRecords (rs.map fun r : Report => r.1.place))
    (foldl_keeps (fun (t : State) (r : Report) => t.oweWrite r.1.port) State.readAhead
      (fun _ _ => by simp) rs { s with queue := rest })

theorem State.departing_queue (s : State) (rest : List WriteRecord) (rs : List Report) :
    (s.departing rest rs).queue = rest :=
  foldl_keeps _ State.queue (fun _ _ => by simp) rs { s with queue := rest }

theorem State.departing_memPort (s : State) (rest : List WriteRecord) (rs : List Report) :
    (s.departing rest rs).memPort = s.memPort :=
  foldl_keeps _ State.memPort (fun _ _ => by simp) rs { s with queue := rest }

/-- A port after the departures of an event: its owed write credits and its list (R41, R140). -/
theorem State.depart_port (s : State) (rest : List WriteRecord) (rs : List Report) (p : PortId) :
    (s.depart rest rs).port p = { s.port p with
      writeOwed := (s.port p).writeOwed + rs.countP fun r => r.1.port = p
      done := ((s.depart rest rs).port p).done } := by
  have ends := (State.onlyDone_foldl _ State.onlyDone_endEntry rs (s.departing rest rs)).trans
    (State.onlyDone_finishFences _ (s.emptied rs))
  have only := ends.trans (.of_port fun q => show State.port (State.weighReads _) q = _ by cases q <;> rfl)
  rw [← State.depart_eq] at only
  rw [only p, State.departing_port]

theorem State.depart_sameNames (s : State) (rest : List WriteRecord) (rs : List Report) :
    s.SameNames (s.depart rest rs) := by
  have left : s.SameNames (s.departing rest rs) := by
    rw [State.SameNames, State.departing_tracker]
    exact map_name_congr fun e => by simp [Entry.name]
  exact (State.sameNames_weighReads _).trans ((State.sameNames_finishFences _ _).trans
    ((State.sameNames_foldl _ State.sameNames_endEntry rs _).trans left))

/-- What follows from the names of the entries. -/
theorem State.SameNames.map_eq {s u : State} (h : s.SameNames u) {γ : Type} (f : Nat × PortId × Byte → γ) :
    u.tracker.map (fun e => f e.name) = s.tracker.map (fun e => f e.name) := by
  have mapped := congrArg (List.map f) h
  rwa [List.map_map, List.map_map] at mapped

/-- Two states that agree in every field are equal. -/
theorem State.eq_of_fields {s u : State} (pins : u.pins = s.pins) (startUp : u.startUp = s.startUp)
    (table : u.table = s.table) (queue : u.queue = s.queue) (tracker : u.tracker = s.tracker)
    (nextPlace : u.nextPlace = s.nextPlace) (readAhead : u.readAhead = s.readAhead)
    (memPort : u.memPort = s.memPort) (portA : u.portA = s.portA) (portB : u.portB = s.portB)
    (log : u.log = s.log) (alertLine : u.alertLine = s.alertLine) (maint : u.maint = s.maint)
    (quiesce : u.quiesce = s.quiesce) (pending : u.pending = s.pending) (images : u.images = s.images) :
    u = s := by
  cases s
  cases u
  congr

/-- Settles O30: the entries that end change their states and their ports' lists alone. -/
theorem departureOwesCredit : Obligations.DepartureOwesCredit := by
  intro s rest rs u
  refine ⟨?_, (s.depart_sameNames rest rs).map_eq Prod.fst, (s.depart_sameNames rest rs).map_eq (·.2.1),
    (s.depart_sameNames rest rs).map_eq (·.2.2)⟩
  exact State.eq_of_fields (s.depart_pins rest rs) (s.depart_startUp rest rs) (s.depart_table rest rs)
    (s.depart_queue rest rs) rfl (s.depart_nextPlace rest rs) rfl (s.depart_memPort rest rs)
    (s.depart_port rest rs .a) (s.depart_port rest rs .b) (s.depart_log rest rs)
    (s.depart_alertLine rest rs) (s.depart_maint rest rs) (s.depart_quiesce rest rs)
    (s.depart_pending rest rs) (s.depart_images rest rs)

end Sys2Proof.Machine
end

section
/-! SUPPORT. The credit laws that every step keeps (O56): the part during LOADING, ports that are not ACTIVE, and the two sums
of each port. -/

namespace Sys2Proof.Machine

/-! ## Ports and entries of a move -/

theorem State.setPort_port (s : State) (p q : PortId) (x : Port) :
    (s.setPort p x).port q = if q = p then x else s.port q := by
  split
  · rename_i h
    rw [h, State.setPort_port_same]
  · rename_i h
    exact State.setPort_port_other s p q x h

theorem State.spentBy_port (s : State) (p q : PortId) (r : Request) :
    (s.spentBy p r).port q = if q = p then r.spend (s.port p) else s.port q :=
  State.setPort_port s p q _

@[simp] theorem State.spentBy_tracker (s : State) (p : PortId) (r : Request) :
    (s.spentBy p r).tracker = s.tracker := State.setPort_tracker s p _

@[simp] theorem State.spentBy_startUp (s : State) (p : PortId) (r : Request) :
    (s.spentBy p r).startUp = s.startUp := State.setPort_startUp s p _

@[simp] theorem State.spentBy_memPort (s : State) (p : PortId) (r : Request) :
    (s.spentBy p r).memPort = s.memPort := State.setPort_memPort s p _

theorem State.owedBack_eq (s : State) (p : PortId) (r : Request) :
    s.owedBack p r = s.setPort p { s.port p with
      writeOwed := (s.port p).writeOwed + if r.needsWrite then 1 else 0 } := by
  unfold State.owedBack
  split
  · rfl
  · exact (State.setPort_port_self s p).symm

@[simp] theorem State.owedBack_tracker (s : State) (p : PortId) (r : Request) :
    (s.owedBack p r).tracker = s.tracker := by
  rw [State.owedBack_eq, State.setPort_tracker]

@[simp] theorem State.owedBack_queue (s : State) (p : PortId) (r : Request) :
    (s.owedBack p r).queue = s.queue := by
  rw [State.owedBack_eq, State.setPort_queue]

@[simp] theorem State.owedBack_startUp (s : State) (p : PortId) (r : Request) :
    (s.owedBack p r).startUp = s.startUp := by
  rw [State.owedBack_eq, State.setPort_startUp]

@[simp] theorem State.owedBack_nextPlace (s : State) (p : PortId) (r : Request) :
    (s.owedBack p r).nextPlace = s.nextPlace := by
  rw [State.owedBack_eq, State.setPort_nextPlace]

@[simp] theorem State.owedBack_readAhead (s : State) (p : PortId) (r : Request) :
    (s.owedBack p r).readAhead = s.readAhead := by
  rw [State.owedBack_eq, State.setPort_readAhead]

@[simp] theorem State.owedBack_memPort (s : State) (p : PortId) (r : Request) :
    (s.owedBack p r).memPort = s.memPort := by
  rw [State.owedBack_eq, State.setPort_memPort]

/-- What a quiet move leaves. -/
theorem State.fields_of_bare {s u : State} (same : u.bare = s.bare) :
    u.queue = s.queue ∧ u.tracker = s.tracker ∧ u.nextPlace = s.nextPlace ∧ u.readAhead = s.readAhead ∧
      u.table = s.table ∧ u.startUp.params = s.startUp.params ∧
      u.startUp.partState = s.startUp.partState := by
  have queue := congrArg State.queue same
  have tracker := congrArg State.tracker same
  have nextPlace := congrArg State.nextPlace same
  have readAhead := congrArg State.readAhead same
  have table := congrArg State.table same
  have startUp := congrArg State.startUp same
  have params := congrArg StartUp.params startUp
  have partState := congrArg StartUp.partState startUp
  exact ⟨queue, tracker, nextPlace, readAhead, table, params, partState⟩

theorem State.port_of_bare {s u : State} (same : u.bare = s.bare) (p : PortId) :
    (u.port p).bare = (s.port p).bare := by
  cases p with
  | a => exact congrArg State.portA same
  | b => exact congrArg State.portB same

/-! ## LOADING -/

/-- Both ports are DOWN and every block is empty (R183). -/
structure State.Blank (s : State) : Prop where
  down : ∀ p, (s.port p).state = .down
  queue : s.queue = []
  tracker : s.tracker = []
  streams : ∀ k : StreamId, s.readAhead.streams[k] = none
  lines : ∀ i : LineId, s.readAhead.lines[i] = none
  slots : ∀ i : SlotId, s.memPort.slots[i] = .free

theorem Slot.isFree_iff (slot : Slot) : slot.isFree = true ↔ slot = .free := by
  cases slot <;> simp [Slot.isFree]

theorem State.loadingEmpty_iff (s : State) :
    s.loadingEmpty = true ↔ (s.startUp.partState = .loading → s.Blank) := by
  unfold State.loadingEmpty
  cases s.startUp.partState with
  | running => simp
  | loading =>
    simp only [reduceCtorEq, decide_false, Bool.false_or, Bool.and_eq_true, decide_eq_true_eq,
      List.isEmpty_iff, List.all_eq_true, mem_allStreams, mem_allLines, mem_allSlots, forall_const,
      Option.isNone_iff_eq_none, Slot.isFree_iff]
    constructor
    · rintro ⟨⟨⟨⟨⟨⟨a, b⟩, queue⟩, tracker⟩, streams⟩, lines⟩, slots⟩
      exact ⟨fun p => by cases p <;> assumption, queue, tracker, streams, lines, slots⟩
    · rintro ⟨down, queue, tracker, streams, lines, slots⟩
      exact ⟨⟨⟨⟨⟨⟨down .a, down .b⟩, queue⟩, tracker⟩, streams⟩, lines⟩, slots⟩

/-- No request arrives at a blank part. -/
theorem State.Blank.not_admitted {s : State} (blank : s.Blank) {p : PortId} {r : Request}
    (admitted : Admitted s p r) : False := by
  have active := admitted.active
  rw [blank.down p] at active
  cases active

/-- A blank part has nothing to grant a slot to. -/
theorem State.Blank.chooseGrant {s : State} (blank : s.Blank) : s.chooseGrant = none := by
  have head : s.headCandidate = none := by
    unfold State.headCandidate
    rw [blank.queue]
  have demand : s.demandCandidate = none := by
    unfold State.demandCandidate
    rw [blank.tracker]
    rfl
  have fetch : s.fetchGrantable = none := by
    unfold State.fetchGrantable
    split
    · refine ReadAhead.earliest_none.2 fun i => ?_
      unfold ReadAhead.lineIs
      rw [blank.lines i]
    · rfl
  unfold State.chooseGrant
  rw [head, demand, fetch]
  rfl

theorem State.Blank.unitMove {s : State} (blank : s.Blank) {ra : ReadAhead} (unit : UnitMove s ra) :
    ra = s.readAhead := by
  cases unit with
  | retired k => exact ReadAhead.retire_of_none (blank.streams k)
  | trimmed k _ _ _ _ active _ =>
    rw [blank.streams k] at active
    cases active
  | opened k st _ _ port _ _ _ =>
    rw [blank.down] at port
    cases port
  | created env k i _ active _ _ =>
    rw [blank.streams k] at active
    cases active

theorem State.Blank.congr {s u : State} (blank : s.Blank)
    (port : ∀ p, (u.port p).state = (s.port p).state) (queue : u.queue = s.queue)
    (tracker : u.tracker = s.tracker) (pool : u.readAhead = s.readAhead)
    (slots : u.memPort.slots = s.memPort.slots) : u.Blank where
  down p := (port p).trans (blank.down p)
  queue := queue.trans blank.queue
  tracker := tracker.trans blank.tracker
  streams k := by rw [pool]; exact blank.streams k
  lines i := by rw [pool]; exact blank.lines i
  slots i := by rw [slots]; exact blank.slots i

theorem State.powerOnValues_blank (s : State) : s.powerOnValues.Blank where
  down p := by cases p <;> rfl
  queue := rfl
  tracker := rfl
  streams _ := vecOf_getElem_fin _ _ _
  lines _ := vecOf_getElem_fin _ _ _
  slots _ := vecOf_getElem_fin _ _ _

theorem State.warmReset_blank (s : State) : s.warmReset.Blank where
  down p := by
    unfold State.warmReset State.logLoss
    cases p <;> split <;> rfl
  queue := by rw [State.warmReset, State.logLoss_queue]
  tracker := by rw [State.warmReset, State.logLoss_tracker]
  streams _ := by
    rw [State.warmReset, State.logLoss_readAhead]
    exact vecOf_getElem_fin _ _ _
  lines _ := by
    rw [State.warmReset, State.logLoss_readAhead]
    exact vecOf_getElem_fin _ _ _
  slots _ := by
    rw [State.warmReset, State.logLoss_memPort]
    exact vecOf_getElem_fin _ _ _

/-- A parameter change moves parameters and owed counts alone (R143, R173). -/
theorem State.replaceParams_eq (s : State) (new : Params) : s.replaceParams new = { s with
    startUp := { s.startUp with params := new }
    portA := (s.replaceParams new).portA
    portB := (s.replaceParams new).portB } := by
  unfold State.replaceParams
  dsimp only
  split <;> rfl

theorem State.replaceParams_port_state (s : State) (new : Params) (p : PortId) :
    ((s.replaceParams new).port p).state = (s.port p).state := by
  unfold State.replaceParams
  dsimp only
  split
  · cases p <;> rfl
  · cases p <;> rfl

/-- Link-up needs a RUNNING part (R131). -/
theorem State.linkUp_of_loading {s : State} (loading : s.startUp.partState = .loading) (p : PortId) :
    s.linkUp p = s := by
  unfold State.linkUp State.linkUpHolds
  rw [loading]
  simp

theorem Move.keeps_blank {s u : State} (move : Move s u)
    (blank : s.startUp.partState = .loading → s.Blank) (loading : u.startUp.partState = .loading) :
    u.Blank := by
  cases move with
  | quiet same =>
    obtain ⟨queue, tracker, _, pool, _, _, part⟩ := State.fields_of_bare same
    refine (blank (part ▸ loading)).congr (fun p => ?_) queue tracker pool
      (State.memPort_slots_of_bare same).1
    have port := congrArg Port.state (State.port_of_bare same p)
    exact port
  | table t _ _ => exact (blank loading).congr (fun _ => rfl) rfl rfl rfl rfl
  | params new _ _ =>
    rw [State.replaceParams_eq] at loading
    refine (blank loading).congr (s.replaceParams_port_state new) ?_ ?_ ?_ ?_ <;>
      rw [State.replaceParams_eq]
  | powerOn => exact s.powerOnValues_blank
  | warmReset => exact s.warmReset_blank
  | configured _ _ _ _ _ _ _ _ => cases loading
  | linkUp p =>
    rw [State.linkUp_startUp] at loading
    rw [State.linkUp_of_loading loading]
    exact blank loading
  | cut p state up _ =>
    rw [State.cut, State.setPort_startUp] at loading
    exact absurd ((blank loading).down p) up
  | readJoins _ admitted _ =>
    exact ((blank (by simpa [State.addRead] using loading)).not_admitted admitted).elim
  | doneJoins _ _ _ admitted _ _ _ _ _ =>
    exact ((blank (by simpa using loading)).not_admitted admitted).elim
  | attaches _ admitted _ _ _ =>
    exact ((blank (by simpa [State.addRead] using loading)).not_admitted admitted).elim
  | writeDropped admitted _ _ => exact ((blank (by simpa using loading)).not_admitted admitted).elim
  | writeJoins _ admitted _ _ _ _ _ =>
    refine ((blank ?_).not_admitted admitted).elim
    rw [State.takePlace_eq] at loading
    simpa using loading
  | fenceJoins _ admitted _ _ => exact ((blank (by simpa using loading)).not_admitted admitted).elim
  | @granted slot g _ choice =>
    have start : (s.grantTo slot g).startUp = s.startUp := by
      unfold State.grantTo State.issueOwner
      dsimp only
      split
      · split <;> rfl
      · rfl
      · rfl
    rw [start] at loading
    rw [(blank loading).chooseGrant] at choice
    cases choice
  | @told i owner line deadline slot v _ busy slot_eq told weighed =>
    have start : u.startUp = s.startUp := by
      have : v.startUp = s.startUp := by
        cases told with
        | nobody _ => rfl
        | ended place status data => exact State.finish_startUp ..
        | waits _ _ _ _ => rfl
        | departs d g _ => exact State.depart_startUp ..
        | headWaits _ _ _ => rfl
        | fetchEnds status data _ _ => exact foldl_keeps _ State.startUp (fun _ _ => by simp) _ _
        | fetchWaits _ _ _ => rfl
      obtain ⟨_, rfl⟩ | rfl := weighed
      · exact this
      · exact this
    rw [start] at loading
    rw [(blank loading).slots i] at busy
    cases busy
  | reclaimed slots freed =>
    have blank := blank loading
    refine ⟨blank.down, blank.queue, ?_, blank.streams, blank.lines, fun i => ?_⟩
    · rw [State.weighReads_tracker]
      exact congrArg (List.map _) blank.tracker
    · rcases freed i with same | ⟨_, free⟩
      · exact same.trans (blank.slots i)
      · exact free
  | headReady queue _ =>
    rw [(blank loading).queue] at queue
    cases queue
  | readReady mem _ =>
    rw [(blank loading).tracker] at mem
    cases mem
  | @lineReady i _ _ line _ =>
    rw [(blank loading).lines i] at line
    cases line
  | pool unit =>
    have blank := blank loading
    exact blank.congr (fun _ => rfl) rfl rfl (blank.unitMove unit) rfl
  | completionBegun p message active =>
    rw [State.setPort_startUp] at loading
    rw [(blank loading).down p] at active
    cases active
  | @completionSent p _ oldest rest link done =>
    have start : (State.freeEntry (s.setPort p { s.port p with link := .idle, done := rest }) p
        oldest).startUp = s.startUp := by
      unfold State.freeEntry
      split <;> simp
    rw [start] at loading
    have blank := blank loading
    have kept : State.freeEntry (s.setPort p { s.port p with link := .idle, done := rest }) p oldest =
        s.setPort p { s.port p with link := .idle, done := rest } := by
      simp [State.freeEntry, blank.tracker]
    rw [kept]
    refine blank.congr (fun q => ?_) (by simp) (by simp) (by simp) (by simp)
    rw [State.setPort_port]
    split
    · rename_i hq
      rw [hq]
    · rfl
  | creditBegun p active =>
    rw [State.setPort_startUp] at loading
    rw [(blank loading).down p] at active
    cases active
  | linkIdle p =>
    rw [State.setPort_startUp] at loading
    refine (blank loading).congr (fun q => ?_) (by simp) (by simp) (by simp) (by simp)
    rw [State.setPort_port]
    split
    · rename_i hq
      rw [hq]
    · rfl

end Sys2Proof.Machine
end

section
/-! SUPPORT. Ports that are not ACTIVE hold nothing (O56, O59). -/

namespace Sys2Proof.Machine

/-- What each step of a fold keeps, the fold keeps. -/
theorem foldl_preserves {α β : Type} (P : α → Prop) (f : α → β → α) (h : ∀ a b, P a → P (f a b))
    (l : List β) (a : α) (ha : P a) : P (l.foldl f a) := by
  induction l generalizing a with
  | nil => exact ha
  | cons b l ih => exact ih (f a b) (h a b ha)

/-- What a port keeps when what no law reads changes. -/
theorem Port.fields_of_bare {x y : Port} (h : x.bare = y.bare) :
    x.state = y.state ∧ x.writeHeld = y.writeHeld ∧ x.writeOwed = y.writeOwed ∧
      x.requestHeld = y.requestHeld ∧ x.requestOwed = y.requestOwed ∧ x.done = y.done ∧
      x.link = y.link := by
  simp only [Port.bare, Port.mk.injEq, true_and, and_true] at h
  exact h

/-- A port at which nothing is held, waits or is sent. -/
def Port.Resting (x : Port) : Prop :=
  x.writeHeld = 0 ∧ x.requestHeld = 0 ∧ x.done = [] ∧ x.link = .idle

/-- Every port that is not ACTIVE is resting, and has no live entry (R132, R149, R151). -/
def State.Idle (s : State) : Prop :=
  ∀ p, (s.port p).state ≠ .active → (s.port p).Resting ∧ ∀ e ∈ s.tracker, e.port ≠ p

theorem liveEntries_eq_zero (tracker : List Entry) (p : PortId) :
    liveEntries tracker p = 0 ↔ ∀ e ∈ tracker, e.port ≠ p := by
  simp [liveEntries, List.countP_eq_zero]

theorem State.idlePort_iff (s : State) (p : PortId) : s.idlePort p = true ↔
    ((s.port p).state ≠ .active → (s.port p).Resting ∧ ∀ e ∈ s.tracker, e.port ≠ p) := by
  unfold State.idlePort Port.Resting
  rw [Bool.or_eq_true, decide_eq_true_iff]
  simp only [Bool.and_eq_true, decide_eq_true_eq, liveEntries_eq_zero]
  tauto

/-! ## What keeps it -/

/-- A state with the same entries' ports whose ports hold no more. -/
theorem State.Idle.of_ports {s u : State} (idle : s.Idle)
    (names : ∀ e ∈ u.tracker, ∃ x ∈ s.tracker, x.port = e.port)
    (port : ∀ p, (u.port p).state ≠ .active →
      (s.port p).state ≠ .active ∧ ((s.port p).Resting → (u.port p).Resting)) : u.Idle := by
  intro p hp
  obtain ⟨hs, rest⟩ := port p hp
  obtain ⟨resting, live⟩ := idle p hs
  refine ⟨rest resting, fun e he => ?_⟩
  obtain ⟨x, hx, hport⟩ := names e he
  exact hport ▸ live x hx

/-- A state in which one ACTIVE port and its entries change. -/
theorem State.Idle.of_active {s u : State} (idle : s.Idle) {p : PortId}
    (active : (u.port p).state = .active) (other : ∀ q, q ≠ p → u.port q = s.port q)
    (names : ∀ e ∈ u.tracker, e.port = p ∨ ∃ x ∈ s.tracker, x.port = e.port) : u.Idle := by
  intro q hq
  by_cases h : q = p
  · rw [h] at hq
    exact absurd active hq
  · rw [other q h] at hq ⊢
    obtain ⟨resting, live⟩ := idle q hq
    refine ⟨resting, fun e he => ?_⟩
    rcases names e he with hp | ⟨x, hx, hport⟩
    · rw [hp]
      exact Ne.symm h
    · exact hport ▸ live x hx

theorem State.SameNames.ports {s u : State} (h : s.SameNames u) :
    ∀ e ∈ u.tracker, ∃ x ∈ s.tracker, x.port = e.port := by
  intro e he
  have : e.name.2.1 ∈ u.tracker.map fun e => e.name.2.1 := List.mem_map.2 ⟨e, he, rfl⟩
  rw [h.map_eq (·.2.1)] at this
  exact List.mem_map.1 this

/-- An entry that ends is one of an ACTIVE port. -/
theorem State.Idle.finish {s : State} (idle : s.Idle) (place : Nat) (status : Status)
    (data : List Byte) : (s.finish place status data).Idle := by
  intro p hp
  rw [s.onlyDone_finish place status data p] at hp ⊢
  obtain ⟨⟨writes, requests, done, link⟩, live⟩ := idle p hp
  have none : ((s.entryAt place).any fun e => decide (e.port = p)) = false := by
    cases h : s.entryAt place with
    | none => rfl
    | some e => simpa using live e (State.entryAt_some h).1
  refine ⟨⟨writes, requests, ?_, link⟩, fun e he => ?_⟩
  · rw [s.finish_done, none, done]
    rfl
  · obtain ⟨x, hx, hport⟩ := (s.sameNames_finish place status data).ports e he
    exact hport ▸ live x hx

theorem State.Idle.setPool {s : State} (idle : s.Idle) (ra : ReadAhead) :
    ({ s with readAhead := ra } : State).Idle := idle

theorem State.Idle.endEntry {s : State} (idle : s.Idle) (r : Report) : (s.endEntry r).Idle := by
  unfold State.endEntry
  split
  · exact idle
  · exact idle.finish _ _ _

theorem State.Idle.finishFence {s : State} (idle : s.Idle) (place : Nat) (f : FenceFields) :
    (s.finishFence place f).Idle := by
  rw [State.finishFence_eq]
  exact (idle.finish place f.status []).setPool _

theorem State.Idle.weighReads {s : State} (idle : s.Idle) : s.weighReads.Idle :=
  idle.of_ports s.sameNames_weighReads.ports fun _ hp => ⟨hp, id⟩

theorem State.Idle.departing {s : State} (idle : s.Idle) (rest : List WriteRecord) (rs : List Report) :
    (s.departing rest rs).Idle := by
  refine idle.of_ports (fun e he => ?_) fun p hp => ?_
  · rw [State.departing_tracker] at he
    obtain ⟨x, hx, rfl⟩ := List.mem_map.1 he
    exact ⟨x, hx, (Entry.reported_port rs x).symm⟩
  · rw [State.departing_port] at hp ⊢
    exact ⟨hp, id⟩

theorem State.Idle.depart {s : State} (idle : s.Idle) (rest : List WriteRecord) (rs : List Report) :
    (s.depart rest rs).Idle := by
  rw [State.depart_eq]
  refine State.Idle.weighReads ?_
  exact foldl_preserves State.Idle _ (fun _ x h => h.finishFence x.1 x.2) _ _
    (foldl_preserves State.Idle _ (fun _ r h => h.endEntry r) rs _ (idle.departing rest rs))

/-- A BUSY slot's owner is told. -/
theorem State.Idle.told {s f v : State} {owner : SlotOwner} (idle : f.Idle) (told : Told s f owner v) :
    v.Idle := by
  cases told with
  | nobody _ => exact idle
  | ended place status data => exact idle.finish place status data
  | waits n t _ _ =>
    refine idle.of_ports (fun x hx => ?_) fun p hp => ⟨hp, id⟩
    obtain ⟨y, hy, rfl⟩ := List.mem_map.1 hx
    refine ⟨y, hy, ?_⟩
    split <;> rfl
  | departs d g _ => exact idle.depart _ _
  | headWaits _ _ _ => exact idle
  | fetchEnds status data _ _ =>
    exact (foldl_preserves State.Idle (fun t x => t.finish x status (data t x))
      (fun t x h => h.finish x status (data t x)) _ f idle).setPool _
  | fetchWaits _ _ _ => exact idle

/-- A request's port is ACTIVE after its credits are spent. -/
theorem Admitted.active_spent {s : State} {p : PortId} {r : Request} (admitted : Admitted s p r) :
    ((s.spentBy p r).port p).state = .active :=
  (s.spentBy_port_state p p r).trans admitted.active

theorem State.Idle.request {s u : State} (idle : s.Idle) {p : PortId} {r : Request}
    (admitted : Admitted s p r) (same : ∀ q, u.port q = (s.spentBy p r).port q)
    (names : ∀ e ∈ u.tracker, e.port = p ∨ ∃ x ∈ s.tracker, x.port = e.port) : u.Idle := by
  refine idle.of_active (p := p) ?_ (fun q hq => ?_) names
  · rw [same]
    exact admitted.active_spent
  · rw [same, State.spentBy_port, if_neg hq]

theorem State.cut_port (s : State) (p q : PortId) (state : PortState) :
    (s.cut p state).port q = if q = p then
      { (s.port p).discarded (s.startUp.params.writeAllocation p)
          (s.startUp.params.requestAllocation p) (queuedRecords s.queue p) with state := state }
    else s.port q := by
  rw [State.cut, State.setPort_port]
  split
  · rfl
  · cases q <;> rfl

theorem State.cut_tracker (s : State) (p : PortId) (state : PortState) :
    (s.cut p state).tracker = s.tracker.filter fun e => !decide (e.port = p) := by
  rw [State.cut, State.setPort_tracker]

theorem State.warmReset_port (s : State) (p : PortId) :
    s.warmReset.port p = (s.port p).warmReset s.startUp.params p := by
  unfold State.warmReset State.logLoss
  cases p <;> split <;> rfl

theorem State.linkUp_port (s : State) (p q : PortId) :
    (s.linkUp p).port q = s.port q ∨
      (q = p ∧ (s.linkUp p).port q = { s.port q with state := .active }) := by
  unfold State.linkUp
  split
  · rw [State.setPort_port]
    split
    · rename_i hq
      exact .inr ⟨hq, by rw [hq]⟩
    · exact .inl rfl
  · exact .inl rfl

theorem State.replaceParams_resting {s : State} (new : Params) (p : PortId)
    (resting : (s.port p).Resting) : ((s.replaceParams new).port p).Resting := by
  obtain ⟨writes, requests, done, link⟩ := resting
  unfold State.replaceParams
  dsimp only
  split
  · cases p <;> exact ⟨writes, requests, done, link⟩
  · cases p <;> exact ⟨writes, requests, done, link⟩

theorem State.freeEntry_tracker (s : State) (p : PortId) (place : Nat) :
    ∀ e ∈ (s.freeEntry p place).tracker, e ∈ s.tracker := by
  unfold State.freeEntry
  split
  · intro e he
    rw [State.setPort_tracker] at he
    exact List.mem_of_mem_eraseP he
  · exact fun _ he => he

theorem State.freeEntry_port (s : State) (p q : PortId) (place : Nat) :
    (s.freeEntry p place).port q = { s.port q with
      requestOwed := ((s.freeEntry p place).port q).requestOwed } := by
  unfold State.freeEntry
  split
  · rw [State.setPort_port]
    split
    · rename_i hq
      rw [hq]
      rfl
    · rfl
  · rfl

/-- A resting port sends no completion. -/
theorem Port.Resting.not_sending {x : Port} (resting : x.Resting) {message : List LinkByte}
    (link : x.link = .sendingCompletion message) : False := by
  obtain ⟨_, _, _, idle⟩ := resting
  rw [idle] at link
  cases link

theorem Move.keeps_idle {s u : State} (move : Move s u) (idle : s.Idle) : u.Idle := by
  cases move with
  | quiet same =>
    obtain ⟨_, tracker, _⟩ := State.fields_of_bare same
    refine idle.of_ports (fun e he => ⟨e, tracker ▸ he, rfl⟩) fun p hp => ?_
    obtain ⟨state, writes, _, requests, _, done, link⟩ := Port.fields_of_bare (State.port_of_bare same p)
    unfold Port.Resting
    rw [writes, requests, done, link]
    exact ⟨state ▸ hp, id⟩
  | table _ _ _ => exact idle
  | params new _ _ =>
    refine idle.of_ports (fun e he => ⟨e, ?_, rfl⟩) fun p hp => ?_
    · rw [State.replaceParams_eq] at he
      exact he
    · rw [State.replaceParams_port_state] at hp
      exact ⟨hp, State.replaceParams_resting new p⟩
  | powerOn =>
    refine fun p _ => ⟨?_, fun e he => (by cases he)⟩
    cases p <;> exact ⟨rfl, rfl, rfl, rfl⟩
  | warmReset =>
    refine fun p _ => ⟨?_, fun e he => ?_⟩
    · rw [State.warmReset_port]
      exact ⟨rfl, rfl, rfl, rfl⟩
    · rw [s.warmReset_blank.tracker] at he
      cases he
  | configured table params mask result read _ _ _ =>
    refine idle.of_ports (fun e he => ⟨e, he, rfl⟩) fun p hp => ?_
    cases p <;> exact ⟨hp, fun ⟨_, _, done, link⟩ => ⟨rfl, rfl, done, link⟩⟩
  | linkUp p =>
    refine idle.of_ports (fun e he => ⟨e, by rwa [State.linkUp_tracker] at he, rfl⟩) fun q hq => ?_
    rcases s.linkUp_port p q with same | ⟨_, up⟩
    · rw [same] at hq ⊢
      exact ⟨hq, id⟩
    · rw [up] at hq
      exact absurd rfl hq
  | cut p state _ _ =>
    intro q hq
    rw [State.cut_port] at hq ⊢
    rw [State.cut_tracker]
    by_cases h : q = p
    · rw [if_pos h]
      refine ⟨⟨rfl, rfl, rfl, rfl⟩, fun e he => ?_⟩
      rw [h]
      simpa using (List.mem_filter.1 he).2
    · rw [if_neg h] at hq ⊢
      obtain ⟨resting, live⟩ := idle q hq
      exact ⟨resting, fun e he => live e (List.mem_filter.1 he).1⟩
  | readJoins fields admitted _ =>
    refine State.Idle.weighReads (idle.request admitted (fun q => by cases q <;> rfl) fun e he => ?_)
    rw [State.addRead, State.addEntry_tracker, List.mem_append, List.mem_singleton,
      State.spentBy_tracker] at he
    rcases he with he | rfl
    · exact .inr ⟨e, he, rfl⟩
    · exact .inl rfl
  | @doneJoins p r e status data admitted _ _ port _ _ =>
    refine State.Idle.finish (idle.of_active (p := p) ?_ (fun q hq => ?_) fun x hx => ?_) _ _ _
    · rw [State.addEntry_port, State.owedBack_eq, State.setPort_port_same]
      exact admitted.active_spent
    · rw [State.addEntry_port, State.owedBack_eq, State.setPort_port, if_neg hq, State.spentBy_port,
        if_neg hq]
    · rw [State.addEntry_tracker, List.mem_append, List.mem_singleton, State.owedBack_tracker,
        State.spentBy_tracker] at hx
      rcases hx with hx | rfl
      · exact .inr ⟨x, hx, rfl⟩
      · exact .inl port
  | attaches fields admitted _ _ _ =>
    refine State.Idle.setPool (idle.request admitted (fun q => by cases q <;> rfl) fun e he => ?_) _
    rw [State.addRead, State.addEntry_tracker, List.mem_append, List.mem_singleton,
      State.spentBy_tracker] at he
    rcases he with he | rfl
    · exact .inr ⟨e, he, rfl⟩
    · exact .inl rfl
  | @writeDropped p r admitted _ _ =>
    refine idle.of_active (p := p) ?_ (fun q hq => ?_) fun e he => .inr ⟨e, by simpa using he, rfl⟩
    · rw [State.oweWrite, State.setPort_port_same]
      exact admitted.active_spent
    · rw [State.oweWrite, State.setPort_port, if_neg hq, State.spentBy_port, if_neg hq]
  | @writeJoins p ack tag n a data r admitted _ _ _ _ _ =>
    refine idle.request admitted (fun q => ?_) fun e he => ?_
    · rw [State.takePlace_eq]
      cases q <;> rfl
    · rw [State.takePlace_eq] at he
      rw [List.mem_append, State.spentBy_tracker] at he
      rcases he with he | he
      · exact .inr ⟨e, he, rfl⟩
      · split at he
        · rw [List.mem_singleton] at he
          rw [he]
          exact .inl rfl
        · cases he
  | fenceJoins f admitted _ _ =>
    refine idle.request admitted (fun q => by cases q <;> rfl) fun e he => ?_
    rw [State.addEntry_tracker, List.mem_append, List.mem_singleton, State.spentBy_tracker] at he
    rcases he with he | rfl
    · exact .inr ⟨e, he, rfl⟩
    · exact .inl rfl
  | @granted slot g _ _ =>
    refine idle.of_ports (fun x hx => ?_) fun p hp => ?_
    · cases g with
      | write head =>
        refine ⟨x, ?_, rfl⟩
        unfold State.grantTo State.issueOwner at hx
        dsimp only at hx
        split at hx <;> exact hx
      | demand e r =>
        obtain ⟨y, hy, rfl⟩ := List.mem_map.1 hx
        refine ⟨y, hy, ?_⟩
        split <;> rfl
      | fetch i => exact ⟨x, hx, rfl⟩
    · have port : (s.grantTo slot g).port p = s.port p := by
        unfold State.grantTo State.issueOwner
        dsimp only
        split
        · split <;> cases p <;> rfl
        · cases p <;> rfl
        · cases p <;> rfl
      rw [port] at hp ⊢
      exact ⟨hp, id⟩
  | @told i _ _ _ slot v _ _ _ told weighed =>
    have ends : v.Idle := State.Idle.told (s := s) (f := s.setSlot i slot)
      (idle.of_ports (fun e he => ⟨e, he, rfl⟩) fun p hp => ⟨by cases p <;> exact hp, by cases p <;> exact id⟩)
      told
    obtain ⟨_, rfl⟩ | rfl := weighed
    · exact ends
    · exact ends.weighReads
  | reclaimed slots _ => exact State.Idle.weighReads (s := { s with memPort := _ }) idle
  | headReady _ _ => exact idle
  | readReady _ _ =>
    refine State.Idle.weighReads (idle.of_ports (fun x hx => ?_) fun p hp => ⟨hp, id⟩)
    obtain ⟨y, hy, rfl⟩ := List.mem_map.1 hx
    refine ⟨y, hy, ?_⟩
    split <;> rfl
  | lineReady _ _ => exact idle
  | pool _ => exact idle
  | completionBegun p message active =>
    refine idle.of_active (p := p) ?_ (fun q hq => ?_) fun e he => .inr ⟨e, by simpa using he, rfl⟩
    · rw [State.setPort_port_same]
      exact active
    · rw [State.setPort_port, if_neg hq]
  | @completionSent p _ oldest rest link _ =>
    refine idle.of_ports (fun e he => ⟨e, ?_, rfl⟩) fun q hq => ?_
    · have := State.freeEntry_tracker _ p oldest e he
      rwa [State.setPort_tracker] at this
    · rw [State.freeEntry_port, State.setPort_port] at hq ⊢
      by_cases h : q = p
      · rw [if_pos h] at hq ⊢
        rw [h]
        exact ⟨hq, fun resting => (resting.not_sending link).elim⟩
      · rw [if_neg h] at hq ⊢
        exact ⟨hq, id⟩
  | creditBegun p active =>
    refine idle.of_active (p := p) ?_ (fun q hq => ?_) fun e he => .inr ⟨e, by simpa using he, rfl⟩
    · rw [State.setPort_port_same]
      exact active
    · rw [State.setPort_port, if_neg hq]
  | linkIdle p =>
    refine idle.of_ports (fun e he => ⟨e, by simpa using he, rfl⟩) fun q hq => ?_
    rw [State.setPort_port] at hq ⊢
    by_cases h : q = p
    · rw [if_pos h] at hq ⊢
      rw [h]
      exact ⟨hq, fun ⟨writes, requests, done, _⟩ => ⟨writes, requests, done, rfl⟩⟩
    · rw [if_neg h] at hq ⊢
      exact ⟨hq, id⟩

end Sys2Proof.Machine
end

section
/-! SUPPORT. The two credit sums of each port, which every step keeps (O56). -/

namespace Sys2Proof.Machine

/-- The four credit counts of a port. -/
def Port.credits (x : Port) : Nat × Nat × Nat × Nat :=
  (x.writeHeld, x.writeOwed, x.requestHeld, x.requestOwed)

/-- Queued records with held and owed write credits, and live entries with held and owed request credits, are the
allocations of a port (R41, R139). -/
def State.WholeAt (s : State) (p : PortId) : Prop :=
  queuedRecords s.queue p + (s.port p).writeHeld + (s.port p).writeOwed =
      s.startUp.params.writeAllocation p ∧
    liveEntries s.tracker p + (s.port p).requestHeld + (s.port p).requestOwed =
      s.startUp.params.requestAllocation p

/-! ## Counting -/

theorem queuedRecords_of_ports {q q' : List WriteRecord}
    (h : q'.map WriteRecord.port = q.map WriteRecord.port) (p : PortId) :
    queuedRecords q' p = queuedRecords q p := by
  have count (x : List WriteRecord) :
      queuedRecords x p = (x.map WriteRecord.port).countP fun y => y = p := by
    rw [List.countP_map]
    rfl
  rw [count, count, h]

theorem liveEntries_of_names {s u : State} (h : s.SameNames u) (p : PortId) :
    liveEntries u.tracker p = liveEntries s.tracker p := by
  have count (x : List Entry) :
      liveEntries x p = (x.map fun e => e.name.2.1).countP fun y => y = p := by
    rw [List.countP_map]
    rfl
  rw [count, count, h.map_eq (·.2.1)]

theorem queuedRecords_append (q : List WriteRecord) (r : WriteRecord) (p : PortId) :
    queuedRecords (q ++ [r]) p = queuedRecords q p + if r.port = p then 1 else 0 := by
  simp [queuedRecords, List.countP_append, List.countP_cons]

theorem liveEntries_append (x : List Entry) (e : Entry) (p : PortId) :
    liveEntries (x ++ [e]) p = liveEntries x p + if e.port = p then 1 else 0 := by
  simp [liveEntries, List.countP_append, List.countP_cons]

/-- The entry of a port at a place is freed (R65). -/
theorem liveEntries_eraseP {x : List Entry} {p q : PortId} {place : Nat} {e : Entry} (mem : e ∈ x)
    (named : decide (e.place = place ∧ e.port = p) = true) :
    liveEntries (x.eraseP fun e => decide (e.place = place ∧ e.port = p)) q + (if q = p then 1 else 0) =
      liveEntries x q := by
  obtain ⟨y, before, after, _, hy, split, erased⟩ := List.exists_of_eraseP
    (p := fun e => decide (e.place = place ∧ e.port = p)) mem named
  rw [decide_eq_true_iff] at hy
  unfold liveEntries
  rw [erased, split]
  simp only [List.countP_append, List.countP_cons, hy.2, decide_eq_true_eq, eq_comm (a := p)]
  omega

/-- What stays of a queue whose head departs, with those that `g` names. -/
theorem queuedRecords_departs (head : WriteRecord) (rest : List WriteRecord) (g : WriteRecord → Bool)
    (d : Departure) (p : PortId) :
    queuedRecords (rest.filter fun r => !g r) p +
        (((head, d) :: (rest.filter g).map fun r => (r, Departure.withdrawn)) : List Report).countP
          (fun x => x.1.port = p) =
      queuedRecords (head :: rest) p := by
  unfold queuedRecords
  rw [List.countP_cons, List.countP_cons, List.countP_map,
    List.countP_eq_countP_filter_add rest (fun r => decide (r.port = p)) g]
  simp only [Function.comp_def]
  omega

/-! ## Sums that stay -/

/-- Neither the parameters, nor the ports of records and entries, nor the credits change. -/
structure State.SameCredits (s u : State) : Prop where
  params : u.startUp.params = s.startUp.params
  queue : u.queue.map WriteRecord.port = s.queue.map WriteRecord.port
  names : s.SameNames u
  port : ∀ p, (u.port p).credits = (s.port p).credits

theorem State.WholeAt.of_same {s u : State} (same : s.SameCredits u) {p : PortId} (whole : s.WholeAt p) :
    u.WholeAt p := by
  obtain ⟨writes, requests⟩ := whole
  have port := same.port p
  simp only [Port.credits, Prod.mk.injEq] at port
  obtain ⟨wh, wo, rh, ro⟩ := port
  unfold State.WholeAt
  rw [queuedRecords_of_ports same.queue, liveEntries_of_names same.names, same.params, wh, wo, rh, ro]
  exact ⟨writes, requests⟩

theorem State.SameCredits.refl (s : State) : s.SameCredits s :=
  ⟨rfl, rfl, rfl, fun _ => rfl⟩

theorem State.SameCredits.trans {s t u : State} (first : s.SameCredits t) (second : t.SameCredits u) :
    s.SameCredits u :=
  ⟨second.params.trans first.params, second.queue.trans first.queue, second.names.trans first.names,
    fun p => (second.port p).trans (first.port p)⟩

theorem State.OnlyDone.credits {s u : State} (h : s.OnlyDone u) (p : PortId) :
    (u.port p).credits = (s.port p).credits := by
  rw [h p]
  rfl

theorem State.sameCredits_finish (s : State) (place : Nat) (status : Status) (data : List Byte) :
    s.SameCredits (s.finish place status data) where
  params := by rw [State.finish_startUp]
  queue := by rw [State.finish_queue]
  names := s.sameNames_finish place status data
  port := (s.onlyDone_finish place status data).credits

theorem State.sameCredits_weighReads (s : State) : s.SameCredits s.weighReads :=
  ⟨rfl, rfl, s.sameNames_weighReads, fun _ => rfl⟩

theorem State.sameCredits_foldl {β : Type} (f : State → β → State)
    (h : ∀ (t : State) b, t.SameCredits (f t b)) (l : List β) (s : State) :
    s.SameCredits (l.foldl f s) :=
  foldl_preserves (s.SameCredits ·) f (fun t b ht => ht.trans (h t b)) l s (.refl s)

/-- The states of entries change, or the read-ahead unit or the slots do. -/
theorem State.SameCredits.of_states {s : State} {tracker : List Entry}
    (names : tracker.map Entry.name = s.tracker.map Entry.name) (ra : ReadAhead) (m : MemPort) :
    s.SameCredits { s with tracker := tracker, readAhead := ra, memPort := m } :=
  ⟨rfl, rfl, names, fun p => by cases p <;> rfl⟩

/-- The departures of an event move credits from the queue to what is owed. -/
theorem State.WholeAt.depart {s f : State} {p : PortId} (whole : s.WholeAt p) (same : s.SameCredits f)
    {head : WriteRecord} {rest : List WriteRecord} (d : Departure) (g : WriteRecord → Bool)
    (queue : s.queue = head :: rest) :
    (f.depart (rest.filter fun r => !g r)
      ((head, d) :: (rest.filter g).map fun r => (r, .withdrawn))).WholeAt p := by
  obtain ⟨writes, requests⟩ := whole.of_same same
  rw [queuedRecords_of_ports same.queue, queue] at writes
  have count := queuedRecords_departs head rest g d p
  unfold State.WholeAt
  rw [State.depart_queue, liveEntries_of_names (f.depart_sameNames _ _), State.depart_port,
    State.depart_startUp]
  dsimp only
  exact ⟨by omega, requests⟩

theorem State.WholeAt.told {s f v : State} {owner : SlotOwner} {p : PortId} (whole : s.WholeAt p)
    (same : s.SameCredits f) (told : Told s f owner v) : v.WholeAt p := by
  cases told with
  | nobody _ => exact whole.of_same same
  | ended place status data => exact whole.of_same (same.trans (f.sameCredits_finish place status data))
  | waits n t _ _ =>
    refine whole.of_same (same.trans (.of_states (map_name_congr fun x => ?_) _ _))
    split <;> rfl
  | departs d g queue => exact whole.depart same d g queue
  | headWaits n t queue =>
    have ports := (congrArg (List.map WriteRecord.port) queue).symm
    refine State.WholeAt.of_same (s := s) ?_ whole
    exact ⟨same.params, ports, same.names, same.port⟩
  | fetchEnds status data _ _ =>
    refine whole.of_same (same.trans ((State.sameCredits_foldl
      (fun t x => t.finish x status (data t x)) (fun t x => t.sameCredits_finish x status (data t x))
      _ f).trans (.of_states rfl _ _)))
  | fetchWaits n t _ => exact whole.of_same (same.trans (.of_states rfl _ _))

/-! ## Requests -/

/-- A port after its credits are spent. -/
theorem State.WholeAt.spent {s : State} {p q : PortId} {r : Request} (whole : s.WholeAt q)
    (admitted : Admitted s p r) :
    (queuedRecords s.queue q + (if p = q ∧ r.needsWrite = true then 1 else 0)) +
        ((s.spentBy p r).port q).writeHeld + ((s.spentBy p r).port q).writeOwed =
        s.startUp.params.writeAllocation q ∧
      (liveEntries s.tracker q + (if p = q ∧ r.needsRequest = true then 1 else 0)) +
        ((s.spentBy p r).port q).requestHeld + ((s.spentBy p r).port q).requestOwed =
        s.startUp.params.requestAllocation q := by
  obtain ⟨writes, requests⟩ := whole
  obtain ⟨_, writeHeld, requestHeld, _⟩ := admitted
  rw [State.spentBy_port]
  by_cases hq : q = p
  · subst hq
    rw [if_pos rfl]
    simp only [Request.spend, true_and]
    constructor
    · split
      · rename_i needs
        have := writeHeld needs
        omega
      · omega
    · split
      · rename_i needs
        have := requestHeld needs
        omega
      · omega
  · rw [if_neg hq]
    simp only [Ne.symm hq, false_and, if_false, Nat.add_zero]
    exact ⟨writes, requests⟩

/-- A request whose credits are spent on a record and an entry of its port, or owed back. -/
theorem State.WholeAt.request {s u : State} {p q : PortId} {r : Request} (whole : s.WholeAt q)
    (admitted : Admitted s p r) (params : u.startUp.params = s.startUp.params)
    (held : (u.port q).writeHeld = ((s.spentBy p r).port q).writeHeld ∧
      (u.port q).requestHeld = ((s.spentBy p r).port q).requestHeld ∧
      (u.port q).requestOwed = ((s.spentBy p r).port q).requestOwed)
    (writes : queuedRecords u.queue q + (u.port q).writeOwed = queuedRecords s.queue q +
      ((s.spentBy p r).port q).writeOwed + if p = q ∧ r.needsWrite = true then 1 else 0)
    (entries : liveEntries u.tracker q = liveEntries s.tracker q +
      if p = q ∧ r.needsRequest = true then 1 else 0) : u.WholeAt q := by
  obtain ⟨wholeWrites, wholeRequests⟩ := whole.spent admitted
  obtain ⟨wh, rh, ro⟩ := held
  unfold State.WholeAt
  rw [params, wh, rh, ro, entries]
  exact ⟨by omega, wholeRequests⟩

/-- The freed entry of a port gives back a request credit (R46, R65). -/
theorem State.WholeAt.freeEntry {s : State} {q : PortId} (whole : s.WholeAt q) (p : PortId) (place : Nat) :
    (s.freeEntry p place).WholeAt q := by
  unfold State.freeEntry
  split
  · rename_i lives
    rw [List.any_eq_true] at lives
    obtain ⟨e, he, hep⟩ := lives
    obtain ⟨writes, requests⟩ := whole
    have freed := liveEntries_eraseP (p := p) (place := place) (q := q) he hep
    have port (x : List Entry) : ({ s with tracker := x } : State).port q = s.port q := by cases q <;> rfl
    unfold State.WholeAt
    rw [State.setPort_port, State.setPort_queue, State.setPort_tracker, State.setPort_startUp, port]
    by_cases h : q = p
    · subst h
      rw [if_pos rfl] at freed ⊢
      exact ⟨writes, by simp only [Port.oweRequest]; omega⟩
    · rw [if_neg h] at freed ⊢
      exact ⟨writes, by dsimp only; omega⟩
  · exact whole

theorem Move.keeps_whole {s u : State} (move : Move s u) (idle : s.Idle) (loading :
    s.startUp.partState = .loading → s.Blank) (whole : ∀ p, s.WholeAt p) (q : PortId) : u.WholeAt q := by
  cases move with
  | quiet same =>
    obtain ⟨queue, tracker, _, _, _, params, _⟩ := State.fields_of_bare same
    refine (whole q).of_same ⟨params, by rw [queue], by rw [State.SameNames, tracker], fun p => ?_⟩
    obtain ⟨_, wh, wo, rh, ro, _⟩ := Port.fields_of_bare (State.port_of_bare same p)
    rw [Port.credits, wh, wo, rh, ro]
    rfl
  | table _ _ _ => exact whole q
  | params new valid allowed =>
    unfold State.replaceParams
    dsimp only
    split
    · rename_i changes
      have refused := allowed changes
      unfold State.refusesAllocations at refused
      simp only [Bool.or_eq_false_iff, decide_eq_false_iff_not, not_lt] at refused
      obtain ⟨⟨⟨activeA, activeB⟩, fitsA⟩, fitsB⟩ := refused
      have none (p : PortId) (h : (s.port p).state ≠ .active) : liveEntries s.tracker p = 0 :=
        (liveEntries_eq_zero _ _).2 (idle p h).2
      cases q with
      | a =>
        obtain ⟨⟨writes, requests, _⟩, _⟩ := idle .a activeA
        have := none .a activeA
        simp only [State.port_a] at writes requests
        simp only [State.WholeAt, State.port_a, Port.reallocated]
        omega
      | b =>
        obtain ⟨⟨writes, requests, _⟩, _⟩ := idle .b activeB
        have := none .b activeB
        simp only [State.port_b] at writes requests
        simp only [State.WholeAt, State.port_b, Port.reallocated]
        omega
    · rename_i same
      simp only [Params.changesAllocations, Bool.not_eq_true', Bool.not_eq_false, Bool.and_eq_true,
        decide_eq_true_eq] at same
      have alloc : new.writeAllocation q = s.startUp.params.writeAllocation q ∧
          new.requestAllocation q = s.startUp.params.requestAllocation q := by
        cases q <;> simp [Params.writeAllocation, Params.requestAllocation, same.1, same.2]
      obtain ⟨writes, requests⟩ := whole q
      exact ⟨writes.trans alloc.1.symm, requests.trans alloc.2.symm⟩
  | powerOn => cases q <;> exact ⟨rfl, rfl⟩
  | warmReset =>
    unfold State.WholeAt
    rw [State.warmReset_port, s.warmReset_blank.queue, s.warmReset_blank.tracker, State.warmReset,
      State.logLoss_startUp]
    simp [queuedRecords, liveEntries, Port.warmReset, Port.discarded]
  | configured table params mask result read part _ _ =>
    have blank := loading part
    unfold State.WholeAt
    have queue : (s.configured table params mask result read).queue = [] := blank.queue
    have tracker : (s.configured table params mask result read).tracker = [] := blank.tracker
    rw [queue, tracker]
    cases q <;> simp [queuedRecords, liveEntries, State.configured, Port.loaded, State.port]
  | linkUp p =>
    refine (whole q).of_same ⟨by rw [State.linkUp_startUp], by rw [State.linkUp_queue],
      by rw [State.SameNames, State.linkUp_tracker], fun r => ?_⟩
    rcases s.linkUp_port p r with same | ⟨_, up⟩
    · rw [same]
    · rw [up]
      rfl
  | cut p state _ _ =>
    have queue : (s.cut p state).queue.map WriteRecord.port = s.queue.map WriteRecord.port := by
      rw [State.cut, State.setPort_queue, List.map_map]
      refine List.map_congr_left fun r _ => ?_
      rw [Function.comp_apply, WriteRecord.unlinked]
      split <;> rfl
    have params : (s.cut p state).startUp.params = s.startUp.params := by
      rw [State.cut, State.setPort_startUp]
    obtain ⟨writes, requests⟩ := whole q
    unfold State.WholeAt
    rw [queuedRecords_of_ports queue, params, State.cut_port, State.cut_tracker]
    by_cases h : q = p
    · have none : liveEntries (s.tracker.filter fun e => !decide (e.port = p)) q = 0 := by
        rw [liveEntries_eq_zero, h]
        exact fun e he => by simpa using (List.mem_filter.1 he).2
      rw [if_pos h, none]
      subst h
      simp only [Port.discarded]
      omega
    · have same : liveEntries (s.tracker.filter fun e => !decide (e.port = p)) q =
          liveEntries s.tracker q := by
        unfold liveEntries
        rw [List.countP_filter]
        refine List.countP_congr fun e _ => ?_
        simp only [Bool.and_eq_true, decide_eq_true_eq, Bool.not_eq_true', decide_eq_false_iff_not]
        exact ⟨fun he => he.1, fun he => ⟨he, fun hp => h (he.symm.trans hp)⟩⟩
      rw [if_neg h, same]
      exact ⟨writes, requests⟩
  | @readJoins p tag n a fields admitted _ =>
    refine State.WholeAt.of_same (State.sameCredits_weighReads _) ((whole q).request admitted
      (by simp [State.addRead]) ?_ ?_ ?_)
    · rw [State.addRead, State.addEntry_port]
      exact ⟨rfl, rfl, rfl⟩
    · rw [State.addRead, State.addEntry_port]
      simp [Request.needsWrite]
    · rw [State.addRead, State.addEntry_tracker, liveEntries_append, State.spentBy_tracker]
      simp [Request.needsRequest]
  | @doneJoins p r e status data admitted needs _ port _ _ =>
    refine State.WholeAt.of_same (State.sameCredits_finish _ _ _ _) ((whole q).request admitted
      (by simp) ?_ ?_ ?_)
    · rw [State.addEntry_port, State.owedBack_eq, State.setPort_port]
      split
      · rename_i h
        rw [h]
        exact ⟨rfl, rfl, rfl⟩
      · exact ⟨rfl, rfl, rfl⟩
    · rw [State.addEntry_port, State.addEntry_queue, State.owedBack_queue, State.spentBy_queue,
        State.owedBack_eq, State.setPort_port]
      by_cases h : q = p
      · subst h
        simp only [if_true, true_and]
        omega
      · simp [h, Ne.symm h]
    · rw [State.addEntry_tracker, liveEntries_append, State.owedBack_tracker, State.spentBy_tracker, port]
      simp [needs]
  | @attaches p tag n a i l fields admitted _ _ _ =>
    refine State.WholeAt.of_same (s := (s.spentBy p (.read tag a n)).addRead p tag fields .attached)
      (.of_states rfl _ _) ((whole q).request admitted (by simp [State.addRead]) ?_ ?_ ?_)
    · rw [State.addRead, State.addEntry_port]
      exact ⟨rfl, rfl, rfl⟩
    · rw [State.addRead, State.addEntry_port]
      simp [Request.needsWrite]
    · rw [State.addRead, State.addEntry_tracker, liveEntries_append, State.spentBy_tracker]
      simp [Request.needsRequest]
  | @writeDropped p r admitted write posted =>
    refine (whole q).request admitted (by simp) ?_ ?_ ?_
    · rw [State.oweWrite, State.setPort_port]
      split
      · rename_i h
        rw [h]
        exact ⟨rfl, rfl, rfl⟩
      · exact ⟨rfl, rfl, rfl⟩
    · rw [State.oweWrite_queue, State.spentBy_queue, State.oweWrite, State.setPort_port]
      by_cases h : q = p
      · subst h
        simp only [if_true, true_and, write, Port.oweWrite]
        omega
      · simp [h, Ne.symm h]
    · rw [State.oweWrite_tracker, State.spentBy_tracker]
      simp [posted]
  | @writeJoins p ack tag n a data r admitted _ port _ _ _ =>
    refine (whole q).request admitted ?_ ?_ ?_ ?_
    · rw [State.takePlace_eq]
      simp
    · rw [State.takePlace_eq]
      cases q <;> exact ⟨rfl, rfl, rfl⟩
    · rw [State.takePlace_eq]
      dsimp only
      rw [queuedRecords_append, port]
      cases q <;> simp [Request.needsWrite, State.port] <;> omega
    · rw [State.takePlace_eq]
      dsimp only
      rw [State.spentBy_tracker]
      cases ack with
      | true =>
        rw [if_pos rfl, liveEntries_append]
        simp [Request.needsRequest]
      | false => simp [Request.needsRequest]
  | @fenceJoins p tag scope purge f admitted _ _ =>
    refine (whole q).request admitted (by simp) ?_ ?_ ?_
    · rw [State.addEntry_port]
      exact ⟨rfl, rfl, rfl⟩
    · rw [State.addEntry_port]
      simp [Request.needsWrite]
    · rw [State.addEntry_tracker, liveEntries_append, State.spentBy_tracker]
      simp [Request.needsRequest]
  | @granted slot g _ _ =>
    cases g with
    | write head =>
      unfold State.grantTo State.issueOwner
      dsimp only
      split
      · exact (whole q).of_same (.of_states rfl _ _)
      · rename_i x rest queue
        change s.queue = x :: rest at queue
        have ports := (congrArg (List.map WriteRecord.port) queue).symm
        refine State.WholeAt.of_same (s := s) ?_ (whole q)
        exact ⟨rfl, ports, rfl, fun r => by cases r <;> rfl⟩
    | demand e r =>
      refine (whole q).of_same (.of_states ?_ _ _)
      exact setEntryState_names _ _ _
    | fetch i => exact (whole q).of_same (.of_states rfl _ _)
  | @told i _ _ _ slot v _ _ _ told weighed =>
    have ends : v.WholeAt q := (whole q).told (f := s.setSlot i slot) (.of_states rfl _ _) told
    obtain ⟨_, rfl⟩ | rfl := weighed
    · exact ends
    · exact ends.of_same (State.sameCredits_weighReads _)
  | reclaimed slots _ =>
    exact (whole q).of_same (.trans (.of_states rfl _ _) (State.sameCredits_weighReads _))
  | headReady queue _ =>
    have ports := (congrArg (List.map WriteRecord.port) queue).symm
    refine State.WholeAt.of_same (s := s) ?_ (whole q)
    exact ⟨rfl, ports, rfl, fun r => by cases r <;> rfl⟩
  | readReady _ _ =>
    exact (whole q).of_same (.trans (.of_states (setEntryState_names _ _ _) _ _)
      (State.sameCredits_weighReads _))
  | lineReady _ _ => exact (whole q).of_same (.of_states rfl _ _)
  | pool _ => exact (whole q).of_same (.of_states rfl _ _)
  | completionBegun p message _ =>
    refine (whole q).of_same ⟨by simp, by simp, by simp [State.SameNames], fun r => ?_⟩
    rw [State.setPort_port]
    split
    · rename_i h
      rw [h]
      rfl
    · rfl
  | @completionSent p message oldest rest _ _ =>
    have idleLink : ∀ r, ((s.setPort p { s.port p with link := .idle, done := rest }).port r).credits =
        (s.port r).credits := by
      intro r
      rw [State.setPort_port]
      split
      · rename_i h
        rw [h]
        rfl
      · rfl
    have whole' := (whole q).of_same (u := s.setPort p { s.port p with link := .idle, done := rest })
      ⟨by simp, by simp, by simp [State.SameNames], idleLink⟩
    exact whole'.freeEntry p oldest
  | creditBegun p _ =>
    obtain ⟨writes, requests⟩ := whole q
    unfold State.WholeAt
    rw [State.setPort_queue, State.setPort_tracker, State.setPort_startUp, State.setPort_port]
    split
    · rename_i h
      subst h
      simp only [Port.creditBegun]
      omega
    · exact ⟨writes, requests⟩
  | linkIdle p =>
    refine (whole q).of_same ⟨by simp, by simp, by simp [State.SameNames], fun r => ?_⟩
    rw [State.setPort_port]
    split
    · rename_i h
      rw [h]
      rfl
    · rfl

end Sys2Proof.Machine
end

section
/-! The credit laws and the capacities they give (O56). -/

namespace Sys2Proof.Machine

/-- The credit sums of both ports, with what they rest on. -/
structure State.Credited (s : State) : Prop where
  blank : s.startUp.partState = .loading → s.Blank
  idle : s.Idle
  whole : ∀ p, s.WholeAt p

theorem Move.keeps_credited {s u : State} (move : Move s u) (credited : s.Credited) : u.Credited where
  blank := move.keeps_blank credited.blank
  idle := move.keeps_idle credited.idle
  whole := move.keeps_whole credited.idle credited.blank credited.whole

theorem PortId.all_iff (f : PortId → Bool) : [PortId.a, PortId.b].all f = true ↔ ∀ p, f p = true := by
  simp only [List.all_cons, List.all_nil, Bool.and_true, Bool.and_eq_true]
  exact ⟨fun ⟨a, b⟩ p => by cases p <;> assumption, fun h => ⟨h .a, h .b⟩⟩

theorem State.credited_iff (s : State) :
    (s.loadingEmpty && [PortId.a, PortId.b].all fun p =>
      s.idlePort p && s.writeCreditsWhole p && s.requestCreditsWhole p) = true ↔ s.Credited := by
  simp only [Bool.and_eq_true, PortId.all_iff, State.loadingEmpty_iff, State.idlePort_iff,
    State.writeCreditsWhole, State.requestCreditsWhole, decide_eq_true_eq]
  exact ⟨fun ⟨blank, ports⟩ => ⟨blank, fun p => (ports p).1.1, fun p => ⟨(ports p).1.2, (ports p).2⟩⟩,
    fun ⟨blank, idle, whole⟩ => ⟨blank, fun p => ⟨⟨idle p, (whole p).1⟩, (whole p).2⟩⟩⟩

theorem StepKeeps.and {f g : State → Bool} (hf : StepKeeps f) (hg : StepKeeps g) :
    StepKeeps fun s => f s && g s := by
  intro s t hs h
  rw [Bool.and_eq_true] at hs ⊢
  exact ⟨hf s t hs.1 h, hg s t hs.2 h⟩

/-- Each record and each entry is one of port A's or one of port B's. -/
theorem queuedRecords_ports (q : List WriteRecord) : queuedRecords q .a + queuedRecords q .b = q.length := by
  unfold queuedRecords
  induction q with
  | nil => rfl
  | cons r rest ih =>
    rw [List.countP_cons, List.countP_cons, List.length_cons]
    cases r.port <;> simp <;> omega

theorem liveEntries_ports (x : List Entry) : liveEntries x .a + liveEntries x .b = x.length := by
  unfold liveEntries
  induction x with
  | nil => rfl
  | cons e rest ih =>
    rw [List.countP_cons, List.countP_cons, List.length_cons]
    cases e.port <;> simp <;> omega

/-- The allocations of both ports are the capacities (R41, R139). -/
theorem State.capacities {s : State} (h : s.creditsWhole = true) :
    s.queue.length ≤ 32 ∧ s.tracker.length ≤ 16 := by
  rw [State.creditsWhole, Bool.and_assoc, Bool.and_eq_true, State.credited_iff] at h
  obtain ⟨valid, _, _, whole⟩ := h
  simp only [State.paramsInRange, Params.valid, Bool.and_eq_true, decide_eq_true_eq] at valid
  obtain ⟨⟨⟨⟨_, _⟩, writeA⟩, _⟩, requestA⟩ := valid
  obtain ⟨writesA, requestsA⟩ := whole .a
  obtain ⟨writesB, requestsB⟩ := whole .b
  simp only [Params.writeAllocation, Params.requestAllocation, Config.writeCapacity,
    Config.requestCapacity] at writesA writesB requestsA requestsB
  have records := queuedRecords_ports s.queue
  have entries := liveEntries_ports s.tracker
  omega

/-- Settles O56: every move keeps the two credit sums of each port, and the sums of both ports are the capacities. -/
theorem stepKeepsCreditsWhole : Obligations.StepKeepsCreditsWhole := by
  refine ⟨?_, fun _ => State.capacities⟩
  have credited := stepKeeps_of_move _ State.credited_iff Move.keeps_credited
  have whole : State.creditsWhole = fun s => s.paramsInRange && (s.loadingEmpty &&
      [PortId.a, PortId.b].all fun p =>
        s.idlePort p && s.writeCreditsWhole p && s.requestCreditsWhole p) := by
    funext s
    exact Bool.and_assoc _ _ _
  rw [whole]
  exact stepKeepsWindowsAndQueueSound.1.and credited

end Sys2Proof.Machine
end

section
/-! SUPPORT. The places that entries and fetch horizons name, through every operation of the unit and of the tracker (O57). -/

namespace Sys2Proof.Machine

/-! ## Fetch horizons -/

/-- Every place of a fetch horizon is one of `C`. -/
def ReadAhead.HorizonsIn (C : Nat → Prop) (ra : ReadAhead) : Prop :=
  ∀ (i : LineId) (l : Line), ra.lines[i] = some l → ∀ x ∈ l.horizon, C x

section Horizons

variable {C : Nat → Prop} {ra : ReadAhead}

theorem ReadAhead.HorizonsIn.setLine (h : ra.HorizonsIn C) (i : LineId) {l : Option Line}
    (line : ∀ l', l = some l' → ∀ x ∈ l'.horizon, C x) : (ra.setLine i l).HorizonsIn C := by
  intro j l' hl
  rw [ReadAhead.setLine_lines] at hl
  split at hl
  · exact line l' hl
  · exact h j l' hl

theorem ReadAhead.HorizonsIn.free (h : ra.HorizonsIn C) (i : LineId) : (ra.setLine i none).HorizonsIn C :=
  h.setLine i fun _ hl => by cases hl

/-- A line changes and keeps its horizon, or some of it. -/
theorem ReadAhead.HorizonsIn.change (h : ra.HorizonsIn C) {i : LineId} {l l' : Line}
    (line : ra.lines[i] = some l) (sub : l'.horizon ⊆ l.horizon) :
    (ra.setLine i (some l')).HorizonsIn C := by
  refine h.setLine i fun m hm x hx => ?_
  cases hm
  exact h i l line x (sub hx)

theorem ReadAhead.HorizonsIn.mapLines (h : ra.HorizonsIn C) {f : Line → Option Line}
    (sub : ∀ l l', f l = some l' → l'.horizon ⊆ l.horizon) : (ra.mapLines f).HorizonsIn C := by
  intro i l' hl
  rw [ReadAhead.mapLines_lines, Option.bind_eq_some_iff] at hl
  obtain ⟨l, line, becomes⟩ := hl
  exact fun x hx => h i l line x (sub l l' becomes hx)

theorem Line.released_horizon {l l' : Line} (h : l.released = some l') : l'.horizon = l.horizon := by
  unfold Line.released at h
  split at h
  · cases h
  · split at h <;> cases h
    rfl
  · cases h
    rfl

theorem ReadAhead.HorizonsIn.releaseAll (h : ra.HorizonsIn C) (is : List LineId) :
    (ra.releaseAll is).HorizonsIn C := by
  intro i l' hl
  rw [ReadAhead.releaseAll_lines] at hl
  split at hl
  · obtain ⟨l, line, becomes⟩ := Option.bind_eq_some_iff.1 hl
    rw [Line.released_horizon becomes]
    exact h i l line
  · exact h i l' hl

theorem ReadAhead.HorizonsIn.setStream (h : ra.HorizonsIn C) (k : StreamId) (st : Option Stream) :
    (ra.setStream k st).HorizonsIn C := h

theorem ReadAhead.HorizonsIn.retire (h : ra.HorizonsIn C) (k : StreamId) : (ra.retire k).HorizonsIn C := by
  unfold ReadAhead.retire
  split
  · exact h
  · exact (h.releaseAll _).setStream k none

theorem ReadAhead.HorizonsIn.retireWhere (h : ra.HorizonsIn C) (f : Stream → Bool) :
    (ra.retireWhere f).HorizonsIn C :=
  ReadAhead.retireWhere_keeps (ReadAhead.HorizonsIn C) (fun _ k hk => hk.retire k) f ra h

theorem ReadAhead.HorizonsIn.struck (h : ra.HorizonsIn C) (written : Addr) :
    (ra.struck written).HorizonsIn C := by
  refine ((h.mapLines fun l l' hl => ?_).retireWhere _).mapLines fun l l' hl => ?_
  · unfold Line.staled at hl
    cases hl
    split <;> exact List.Subset.refl _
  · unfold Line.cancelStale at hl
    split at hl <;> cases hl
    exact List.Subset.refl _

theorem ReadAhead.HorizonsIn.shed (h : ra.HorizonsIn C) (p : PortId) (gone : List Nat) :
    (ra.shed p gone).HorizonsIn C := by
  refine ((h.mapLines fun l l' hl => ?_).retireWhere _).mapLines fun l l' hl => ?_
  · cases hl
    exact List.Subset.refl _
  · unfold Line.cancelUnwanted at hl
    split at hl <;> cases hl
    exact List.Subset.refl _

theorem ReadAhead.HorizonsIn.attach (h : ra.HorizonsIn C) (i : LineId) (place : Nat) :
    (ra.attach i place).HorizonsIn C := by
  unfold ReadAhead.attach
  split
  · exact h
  · rename_i line
    exact h.change line (List.Subset.refl _)

theorem ReadAhead.HorizonsIn.issue (h : ra.HorizonsIn C) (i : LineId) : (ra.issue i).HorizonsIn C := by
  unfold ReadAhead.issue
  split
  · exact h
  · rename_i line
    exact h.change line (List.Subset.refl _)

theorem ReadAhead.HorizonsIn.dropRecords (h : ra.HorizonsIn C) (departed : List Nat) :
    (ra.dropRecords departed).HorizonsIn C := by
  refine h.mapLines fun l l' hl => ?_
  cases hl
  exact List.filter_subset_self _

theorem ReadAhead.HorizonsIn.lineEnd (h : ra.HorizonsIn C) {i : LineId} {l : Line} {ra' : ReadAhead}
    (ends : LineEnd ra i l ra') : ra'.HorizonsIn C := by
  cases ends with
  | valid _ _ _ _ =>
    refine h.setLine i fun m hm x hx => ?_
    cases hm
    cases hx
  | unwanted _ => exact h.free i
  | failed =>
    refine ReadAhead.HorizonsIn.free ?_ i
    unfold ReadAhead.retireOwner
    split
    · exact h
    · exact h.retire _

theorem ReadAhead.HorizonsIn.unitMove {s : State} (h : s.readAhead.HorizonsIn C)
    (queued : ∀ x ∈ s.queuedPlaces, C x) {ra' : ReadAhead} (unit : UnitMove s ra') :
    ra'.HorizonsIn C := by
  cases unit with
  | retired k => exact h.retire k
  | trimmed k gone kept next last _ _ => exact (h.releaseAll gone).setStream k _
  | opened k st _ _ _ _ _ _ => exact h.setStream k _
  | created env k i horizon _ _ _ =>
    intro j l hl x hx
    rw [ReadAhead.createLine_lines] at hl
    split at hl
    · cases hl
      rw [newLine, horizon] at hx
      exact queued x hx
    · exact h j l hl x hx

end Horizons

/-! ## The pool at departures -/

/-- Departures drop their records from the fetch horizons, and the fences they end may retire every stream
(R92, R100). -/
theorem State.depart_readAhead (s : State) (rest : List WriteRecord) (rs : List Report) :
    (s.depart rest rs).readAhead = s.readAhead.dropRecords (rs.map fun r => r.1.place) ∨
      (s.depart rest rs).readAhead =
        (s.readAhead.dropRecords (rs.map fun r => r.1.place)).retireWhere fun _ => true := by
  have ended : ((rs.foldl State.endEntry (s.departing rest rs))).readAhead =
      s.readAhead.dropRecords (rs.map fun r => r.1.place) :=
    (foldl_keeps _ State.readAhead (fun _ _ => by simp) rs _).trans (s.departing_readAhead rest rs)
  rw [State.depart_eq, State.weighReads_readAhead, ← ended]
  generalize rs.foldl State.endEntry (s.departing rest rs) = t
  refine foldl_preserves (fun u : State => u.readAhead = t.readAhead ∨
    u.readAhead = t.readAhead.retireWhere fun _ => true) _ (fun u x hu => ?_) (s.emptied rs) t (.inl rfl)
  rw [State.finishFence_eq]
  dsimp only
  split
  · refine .inr ?_
    rcases hu with same | purged
    · rw [same]
      exact (ReadAhead.purge_eq _ _).1
    · have free := (t.readAhead.purge_eq u.fetchEnv).2
      rw [(t.readAhead.purge_eq u.fetchEnv).1, ← purged] at free
      rw [ReadAhead.purge_of_no_streams _ free, purged]
  · exact hu

/-! ## Places that entries name -/

/-- Every place an entry names, and every place of a fetch horizon, is one of `C`. -/
structure State.PlacesIn (C : Nat → Prop) (s : State) : Prop where
  entries : ∀ e ∈ s.tracker, ∀ x ∈ e.places, C x
  pool : s.readAhead.HorizonsIn C

section Places

variable {C : Nat → Prop} {s : State}

/-- Each entry becomes one that names no further place. -/
theorem State.PlacesIn.of_map (h : s.PlacesIn C) {u : State} {f : Entry → Entry}
    (sub : ∀ e ∈ s.tracker, (f e).places ⊆ e.places) (tracker : u.tracker = s.tracker.map f)
    (pool : u.readAhead.HorizonsIn C) : u.PlacesIn C := by
  refine ⟨fun e' he' x hx => ?_, pool⟩
  rw [tracker] at he'
  obtain ⟨e, he, rfl⟩ := List.mem_map.1 he'
  exact h.entries e he x (sub e he hx)

/-- The state of an entry names no place. -/
theorem Entry.setState_places (e : Entry) (state : EntryState) :
    Entry.places { e with state := state } = e.places := rfl

theorem State.PlacesIn.finish (h : s.PlacesIn C) (place : Nat) (status : Status) (data : List Byte) :
    (s.finish place status data).PlacesIn C := by
  refine h.of_map (fun e _ => ?_) (s.finish_tracker place status data) ?_
  · split
    · rw [Entry.setState_places]
      exact List.Subset.refl _
    · exact List.Subset.refl _
  · rw [State.finish_readAhead]
    exact h.pool

theorem State.PlacesIn.endEntry (h : s.PlacesIn C) (r : Report) : (s.endEntry r).PlacesIn C := by
  unfold State.endEntry
  split
  · exact h
  · exact h.finish _ _ _

theorem State.PlacesIn.setPool (h : s.PlacesIn C) {ra : ReadAhead} (pool : ra.HorizonsIn C) :
    State.PlacesIn C { s with readAhead := ra } :=
  ⟨h.entries, pool⟩

theorem State.PlacesIn.finishFence (h : s.PlacesIn C) (place : Nat) (f : FenceFields) :
    (s.finishFence place f).PlacesIn C := by
  rw [State.finishFence_eq]
  refine (h.finish place f.status []).setPool ?_
  split
  · rw [(ReadAhead.purge_eq _ _).1]
    exact h.pool.retireWhere _
  · exact h.pool

theorem weighEntry_places (queue : List WriteRecord) (orphaned : List Addr) (e : Entry) :
    (weighEntry queue orphaned e).places = e.places := by
  simp [Entry.places]

theorem State.PlacesIn.weighReads (h : s.PlacesIn C) : s.weighReads.PlacesIn C :=
  h.of_map (fun e _ => by rw [weighEntry_places]; exact List.Subset.refl _) s.weighReads_tracker h.pool

/-- Reports take places from horizons and add none (R41, R98). -/
theorem Entry.reported_places (rs : List Report) (e : Entry) : (e.reported rs).places ⊆ e.places := by
  unfold Entry.reported
  split
  · rename_i f kind _
    simp only [Entry.places, kind]
    exact List.cons_subset_cons _ fun p hp => ((f.reportAll_horizon rs p).1 hp).1
  · rename_i r kind
    simp only [Entry.places, kind]
    exact List.cons_subset_cons _ (List.filter_subset_self _)
  · exact List.Subset.refl _

theorem State.PlacesIn.depart (h : s.PlacesIn C) (rest : List WriteRecord) (rs : List Report) :
    (s.depart rest rs).PlacesIn C := by
  have left : (s.departing rest rs).PlacesIn C := by
    refine h.of_map (fun e _ => e.reported_places rs) (s.departing_tracker rest rs) ?_
    rw [State.departing_readAhead]
    exact h.pool.dropRecords _
  have ended := foldl_preserves (State.PlacesIn C) State.endEntry (fun _ r ht => ht.endEntry r) rs _ left
  rw [State.depart_eq]
  exact (foldl_preserves (State.PlacesIn C) _ (fun _ x ht => ht.finishFence x.1 x.2) (s.emptied rs) _
    ended).weighReads

end Places

end Sys2Proof.Machine
end

section
/-! SUPPORT. The acceptance order and the tags, which every step keeps (O57). -/

namespace Sys2Proof.Machine

/-! ## The order of a state -/

/-- A place that a record, an entry or a fetch horizon names. -/
def State.Held (s : State) (x : Nat) : Prop :=
  x ∈ s.queuedPlaces ∨ (∃ e ∈ s.tracker, x ∈ e.places) ∨
    ∃ (i : LineId) (l : Line), s.readAhead.lines[i] = some l ∧ x ∈ l.horizon

/-- Records and entries stand in acceptance order, and every place in use lies before the next one (R22, R47). -/
structure State.Ordered (s : State) : Prop where
  queue : s.queuedPlaces.Pairwise (· < ·)
  tracker : (s.tracker.map Entry.place).Pairwise (· < ·)
  below : ∀ x, s.Held x → x < s.nextPlace

theorem rising_iff (places : List Nat) : rising places = true ↔ places.Pairwise (· < ·) := by
  induction places with
  | nil => simp [rising]
  | cons n rest ih =>
    simp [rising, ih]

theorem State.orderSound_iff (s : State) : s.orderSound = true ↔ s.Ordered := by
  unfold State.orderSound
  simp only [Bool.and_eq_true, Bool.or_eq_true, rising_iff, List.all_eq_true, decide_eq_true_eq,
    ReadAhead.lineIs_true, Option.isNone_iff_eq_none]
  constructor
  · rintro ⟨⟨⟨⟨queue, tracker⟩, records⟩, entries⟩, lines⟩
    refine ⟨queue, tracker, ?_⟩
    rintro x (hx | ⟨e, he, hx⟩ | ⟨i, l, line, hx⟩)
    · obtain ⟨r, hr, rfl⟩ := List.mem_map.1 hx
      exact records r hr
    · exact entries e he x hx
    · rcases lines i (mem_allLines i) with ⟨m, hm, below⟩ | none
      · rw [line] at hm
        cases hm
        exact below x hx
      · rw [line] at none
        cases none
  · rintro ⟨queue, tracker, below⟩
    refine ⟨⟨⟨⟨queue, tracker⟩, fun r hr => below _ (.inl (List.mem_map_of_mem hr))⟩,
      fun e he x hx => below x (.inr (.inl ⟨e, he, hx⟩))⟩, fun i _ => ?_⟩
    cases line : s.readAhead.lines[i] with
    | none => exact .inr rfl
    | some l => exact .inl ⟨l, rfl, fun x hx => below x (.inr (.inr ⟨i, l, line, hx⟩))⟩

/-! ## What a move does to the order -/

/-- The places, and the names of entries, that one move adds. -/
inductive Fresh (s : State) : List Nat → List (Nat × PortId × Byte) → Prop
  | none : Fresh s [] []
  | record : Fresh s [s.nextPlace] []
  | entry (p : PortId) (tag : Byte) (unused : ∀ e ∈ s.tracker, ¬ (e.port = p ∧ e.tag = tag)) :
      Fresh s [s.nextPlace] [(s.nextPlace, p, tag)]

/-- What follows a state in which records and entries may have left, and `places` and `names` may have joined. -/
structure State.Follows (s u : State) (places : List Nat) (names : List (Nat × PortId × Byte)) : Prop where
  nextPlace : u.nextPlace = s.nextPlace + places.length
  queue : u.queuedPlaces.Sublist (s.queuedPlaces ++ places)
  names : (u.tracker.map Entry.name).Sublist (s.tracker.map Entry.name ++ names)
  held : u.PlacesIn fun x => s.Held x ∨ x ∈ places

/-- Nothing that has a place. -/
structure State.Bare (s : State) : Prop where
  queue : s.queue = []
  tracker : s.tracker = []
  lines : ∀ i : LineId, s.readAhead.lines[i] = none

theorem State.Bare.ordered {s : State} (bare : s.Bare) : s.Ordered where
  queue := by
    rw [State.queuedPlaces, bare.queue]
    exact .nil
  tracker := by
    rw [bare.tracker]
    exact .nil
  below := by
    rintro x (hx | ⟨e, he, _⟩ | ⟨i, l, line, _⟩)
    · rw [State.queuedPlaces, bare.queue] at hx
      cases hx
    · rw [bare.tracker] at he
      cases he
    · rw [bare.lines] at line
      cases line

theorem State.Blank.bare {s : State} (blank : s.Blank) : s.Bare :=
  ⟨blank.queue, blank.tracker, blank.lines⟩

theorem map_place_eq (tracker : List Entry) :
    tracker.map Entry.place = (tracker.map Entry.name).map Prod.fst := by
  rw [List.map_map]
  rfl

/-- A list below a bound, with the bound at its end. -/
theorem pairwise_append_bound {xs : List Nat} {n : Nat} (rise : xs.Pairwise (· < ·))
    (below : ∀ x ∈ xs, x < n) : (xs ++ [n]).Pairwise (· < ·) := by
  rw [List.pairwise_append]
  exact ⟨rise, List.pairwise_singleton _ _, fun x hx y hy => by
    rw [List.mem_singleton.1 hy]
    exact below x hx⟩

theorem Entry.place_mem_places (e : Entry) : e.place ∈ e.places := by
  unfold Entry.places
  split <;> simp

theorem State.Ordered.follows {s u : State} {places : List Nat} {names : List (Nat × PortId × Byte)}
    (ordered : s.Ordered) (fresh : Fresh s places names) (next : s.Follows u places names) : u.Ordered := by
  have entries : ∀ x ∈ s.tracker.map Entry.place, x < s.nextPlace := by
    intro x hx
    obtain ⟨e, he, rfl⟩ := List.mem_map.1 hx
    exact ordered.below _ (.inr (.inl ⟨e, he, e.place_mem_places⟩))
  have records : ∀ x ∈ s.queuedPlaces, x < s.nextPlace := fun x hx => ordered.below x (.inl hx)
  have bound : ∀ x, s.Held x ∨ x ∈ places → x < u.nextPlace := by
    rw [next.nextPlace]
    rintro x (hx | hx)
    · exact Nat.lt_add_right _ (ordered.below x hx)
    · cases fresh with
      | none => cases hx
      | _ =>
        rw [List.mem_singleton.1 hx]
        exact Nat.lt_succ_self _
  refine ⟨?_, ?_, ?_⟩
  · refine List.Pairwise.sublist next.queue ?_
    cases fresh with
    | none => rw [List.append_nil]; exact ordered.queue
    | _ => exact pairwise_append_bound ordered.queue records
  · have sub := next.names.map Prod.fst
    rw [← map_place_eq, List.map_append, ← map_place_eq] at sub
    refine List.Pairwise.sublist sub ?_
    cases fresh with
    | entry _ _ _ => exact pairwise_append_bound ordered.tracker entries
    | _ => rw [List.map_nil, List.append_nil]; exact ordered.tracker
  · rintro x (hx | ⟨e, he, hx⟩ | ⟨i, l, line, hx⟩)
    · refine bound x ?_
      rcases List.mem_append.1 (next.queue.subset hx) with old | new
      · exact .inl (.inl old)
      · exact .inr new
    · exact bound x (next.held.entries e he x hx)
    · exact bound x (next.held.pool i l line x hx)

/-- The tags of live entries of a port are distinct (R48). -/
def State.TagsDistinct (s : State) : Prop :=
  (s.tracker.map fun e => (e.port, e.tag)).Nodup

theorem map_tag_eq (tracker : List Entry) :
    (tracker.map fun e => (e.port, e.tag)) = (tracker.map Entry.name).map Prod.snd := by
  rw [List.map_map]
  rfl

theorem State.TagsDistinct.follows {s u : State} {places : List Nat} {names : List (Nat × PortId × Byte)}
    (distinct : s.TagsDistinct) (fresh : Fresh s places names) (next : s.Follows u places names) :
    u.TagsDistinct := by
  have sub := next.names.map Prod.snd
  rw [← map_tag_eq, List.map_append, ← map_tag_eq] at sub
  refine List.Nodup.sublist sub ?_
  cases fresh with
  | entry p tag unused =>
    rw [List.nodup_append]
    refine ⟨distinct, List.nodup_singleton _, fun x hx y hy same => ?_⟩
    obtain ⟨e, he, rfl⟩ := List.mem_map.1 hx
    rw [List.mem_singleton.1 hy] at same
    exact unused e he (Prod.mk.injEq .. ▸ same)
  | _ => rw [List.map_nil, List.append_nil]; exact distinct

/-! ## Moves -/

section Follows

variable {s u : State}

theorem State.placesIn_held (s : State) (places : List Nat) :
    s.PlacesIn fun x => s.Held x ∨ x ∈ places :=
  ⟨fun e he _ hx => .inl (.inr (.inl ⟨e, he, hx⟩)), fun i l line _ hx => .inl (.inr (.inr ⟨i, l, line, hx⟩))⟩

/-- Nothing joins. -/
theorem State.Follows.of_sublists (nextPlace : u.nextPlace = s.nextPlace)
    (queue : u.queuedPlaces.Sublist s.queuedPlaces)
    (names : (u.tracker.map Entry.name).Sublist (s.tracker.map Entry.name))
    (held : u.PlacesIn fun x => s.Held x ∨ x ∈ ([] : List Nat)) : s.Follows u [] [] :=
  ⟨nextPlace, by rwa [List.append_nil], by rwa [List.append_nil], held⟩

/-- Records, entries and horizons stay. -/
theorem State.Follows.of_same (nextPlace : u.nextPlace = s.nextPlace)
    (queue : u.queuedPlaces = s.queuedPlaces) (tracker : u.tracker = s.tracker)
    (pool : u.readAhead.HorizonsIn fun x => s.Held x ∨ x ∈ ([] : List Nat)) : s.Follows u [] [] := by
  refine .of_sublists nextPlace (by rw [queue]) (by rw [tracker]) ⟨?_, pool⟩
  rw [tracker]
  exact (s.placesIn_held []).entries

theorem State.Follows.weighReads {places : List Nat} {names : List (Nat × PortId × Byte)}
    (next : s.Follows u places names) : s.Follows u.weighReads places names :=
  ⟨next.nextPlace, next.queue, by rw [show _ = _ from u.sameNames_weighReads]; exact next.names,
    next.held.weighReads⟩

end Follows

end Sys2Proof.Machine
end

section
/-! SUPPORT. Every move follows the acceptance order (O57). -/

namespace Sys2Proof.Machine

section Follows

variable {s f v : State}

/-- A slot changes, and nothing that has a place. -/
structure State.SamePlaced (s f : State) : Prop where
  nextPlace : f.nextPlace = s.nextPlace
  queue : f.queue = s.queue
  tracker : f.tracker = s.tracker
  pool : f.readAhead = s.readAhead

theorem State.SamePlaced.placesIn (same : s.SamePlaced f) {C : Nat → Prop} (held : s.PlacesIn C) :
    f.PlacesIn C := by
  refine ⟨?_, ?_⟩
  · rw [same.tracker]
    exact held.entries
  · rw [same.pool]
    exact held.pool

theorem State.SamePlaced.follows (same : s.SamePlaced f) : s.Follows f [] [] :=
  .of_same same.nextPlace (by rw [State.queuedPlaces, same.queue]; rfl) same.tracker
    (same.placesIn (s.placesIn_held [])).pool

/-- The names and the places of entries stay, and nothing else that has a place changes. -/
theorem State.SamePlaced.names (same : s.SamePlaced f) (nextPlace : v.nextPlace = f.nextPlace)
    (queue : v.queue = f.queue) (names : f.SameNames v)
    (held : v.PlacesIn fun x => s.Held x ∨ x ∈ ([] : List Nat)) : s.Follows v [] [] := by
  refine .of_sublists (nextPlace.trans same.nextPlace) ?_ ?_ held
  · rw [State.queuedPlaces, queue, same.queue]
    exact List.Sublist.refl _
  · rw [show v.tracker.map Entry.name = _ from names, same.tracker]

theorem Told.follows {owner : SlotOwner} (told : Told s f owner v) (same : s.SamePlaced f) :
    s.Follows v [] [] := by
  have held := same.placesIn (s.placesIn_held [])
  cases told with
  | nobody _ => exact same.follows
  | ended place status data =>
    exact same.names (by simp) (by simp) (f.sameNames_finish place status data) (held.finish _ _ _)
  | @waits place e r n t found kind =>
    refine same.names rfl rfl (map_name_congr fun x => ?_) ⟨fun x' hx' y hy => ?_, held.pool⟩
    · split <;> rfl
    · obtain ⟨x, hx, rfl⟩ := List.mem_map.1 hx'
      split at hy
      · rename_i place_eq
        have mem : e ∈ f.tracker := by
          rw [same.tracker]
          exact List.mem_of_find?_eq_some found
        refine held.entries e mem y ?_
        simp only [Entry.places, kind] at hy ⊢
        rwa [← place_eq]
      · exact held.entries x hx y hy
  | departs d g queue =>
    refine .of_sublists ?_ ?_ ?_ (held.depart _ _)
    · rw [State.depart_nextPlace, same.nextPlace]
    · rw [State.queuedPlaces, State.depart_queue, State.queuedPlaces, queue]
      exact (List.filter_sublist.map _).cons _
    · rw [show _ = _ from f.depart_sameNames _ _, same.tracker]
  | headWaits n t queue =>
    refine .of_sublists same.nextPlace ?_ (by rw [same.tracker]) ⟨held.entries, held.pool⟩
    rw [State.queuedPlaces, State.queuedPlaces, queue]
    exact List.Sublist.refl _
  | @fetchEnds i l ra status data line ends =>
    have foldNames := State.sameNames_foldl (fun (t : State) x => t.finish x status (data t x))
      (fun t x => t.sameNames_finish x status (data t x)) l.attached f
    have foldHeld := foldl_preserves (State.PlacesIn _)
      (fun (t : State) x => t.finish x status (data t x))
      (fun t x ht => ht.finish x status (data t x)) l.attached f held
    refine same.names ?_ ?_ foldNames (foldHeld.setPool ((s.placesIn_held []).pool.lineEnd ends))
    · exact foldl_keeps _ State.nextPlace (fun _ _ => by simp) _ _
    · exact foldl_keeps _ State.queue (fun _ _ => by simp) _ _
  | fetchWaits n t line =>
    exact same.names rfl rfl rfl
      (held.setPool ((s.placesIn_held []).pool.change line (List.Subset.refl _)))

end Follows

section Moves

variable {s u : State}

theorem State.queuedPlaces_eq (s : State) : s.queuedPlaces = s.queue.map WriteRecord.place := rfl

/-- A request's place, in front of what it adds. -/
theorem Admitted.fresh_entry {p : PortId} {r : Request} {tag : Byte} (admitted : Admitted s p r)
    (ht : r.tag? = some tag) : Fresh s [s.nextPlace] [(s.nextPlace, p, tag)] :=
  .entry p tag (admitted.fresh tag ht)

/-- An entry joins, with places that are held or its own. -/
theorem State.Follows.joins {t : State} {e : Entry} (same : s.SamePlaced t)
    (place : e.place = s.nextPlace) (places : ∀ x ∈ e.places, s.Held x ∨ x = s.nextPlace) :
    s.Follows (t.addEntry e) [s.nextPlace] [(s.nextPlace, e.port, e.tag)] where
  nextPlace := by rw [State.addEntry_nextPlace, same.nextPlace]; rfl
  queue := by
    rw [State.queuedPlaces, State.addEntry_queue, same.queue]
    exact List.sublist_append_left _ _
  names := by
    rw [State.addEntry_tracker, same.tracker, List.map_append, ← place]
    exact List.Sublist.refl _
  held := by
    refine ⟨fun x hx y hy => ?_, ?_⟩
    · rw [State.addEntry_tracker, same.tracker, List.mem_append, List.mem_singleton] at hx
      rcases hx with old | rfl
      · exact (s.placesIn_held _).entries x old y hy
      · rcases places y hy with held | rfl
        · exact .inl held
        · exact .inr (List.mem_singleton_self _)
    · rw [State.addEntry_readAhead, same.pool]
      exact (s.placesIn_held _).pool

theorem State.spentBy_samePlaced (s : State) (p : PortId) (r : Request) :
    s.SamePlaced (s.spentBy p r) :=
  ⟨by simp [State.spentBy], by simp, by simp, by simp⟩

theorem State.setPort_samePlaced (s : State) (p : PortId) (x : Port) : s.SamePlaced (s.setPort p x) :=
  ⟨by simp, by simp, by simp, by simp⟩

/-- The places of a new read's entry. -/
theorem State.Follows.joinsRead {p : PortId} {tag n : Byte} {a : Addr} (fields : ReadFields)
    (state : EntryState) (horizon : fields.horizon ⊆ s.queuedPlaces) :
    s.Follows ((s.spentBy p (.read tag a n)).addRead p tag fields state) [s.nextPlace]
      [(s.nextPlace, p, tag)] := by
  have same := s.spentBy_samePlaced p (.read tag a n)
  unfold State.addRead
  refine State.Follows.joins same same.nextPlace fun x hx => ?_
  rcases List.mem_cons.1 hx with own | queued
  · exact .inr (own.trans same.nextPlace)
  · exact .inl (.inl (horizon queued))

/-! ## Grants -/

/-- The memory port after a grant (R109, R124). -/
def State.grantedPort (s : State) (slot : SlotId) (g : Grant) : MemPort where
  slots := s.memPort.slots.set slot (s.grantedSlot (s.grantParts slot g).1 (s.grantParts slot g).2.1)
  passedOver := s.passedOverAfter g
  lastRequest := (s.grantParts slot g).2.2

/-- A granted write leaves QUEUED (R28). -/
theorem State.grantTo_write {head : WriteRecord} {rest : List WriteRecord} (queue : s.queue = head :: rest)
    (slot : SlotId) (w : WriteRecord) : s.grantTo slot (.write w) = { s with
      memPort := s.grantedPort slot (.write w)
      queue := { head with state := .issued } :: rest } := by
  unfold State.grantTo State.issueOwner
  dsimp only
  rw [State.setSlot_queue, queue]
  rfl

theorem State.grantTo_demand (s : State) (slot : SlotId) (e : Entry) (r : ReadFields) :
    s.grantTo slot (.demand e r) = { s with
      memPort := s.grantedPort slot (.demand e r)
      tracker := setEntryState s.tracker e.place .issued } := rfl

theorem State.grantTo_fetch (s : State) (slot : SlotId) (i : LineId) :
    s.grantTo slot (.fetch i) = { s with
      memPort := s.grantedPort slot (.fetch i)
      readAhead := s.readAhead.issue i } := rfl

/-- A new state of an entry names no place. -/
theorem State.PlacesIn.setEntryState {C : Nat → Prop} (held : s.PlacesIn C) (place : Nat)
    (state : EntryState) (m : MemPort) :
    State.PlacesIn C { s with memPort := m, tracker := setEntryState s.tracker place state } := by
  refine held.of_map (fun e _ => ?_) rfl held.pool
  split
  · rw [Entry.setState_places]
    exact List.Subset.refl _
  · exact List.Subset.refl _

theorem Move.follows (move : Move s u) :
    u.Bare ∨ ∃ places names, Fresh s places names ∧ s.Follows u places names := by
  have held := s.placesIn_held []
  have nothing (next : s.Follows u [] []) :
      u.Bare ∨ ∃ places names, Fresh s places names ∧ s.Follows u places names :=
    .inr ⟨[], [], .none, next⟩
  cases move with
  | quiet same =>
    obtain ⟨queue, tracker, nextPlace, pool, _⟩ := State.fields_of_bare same
    exact nothing (State.SamePlaced.follows ⟨nextPlace, queue, tracker, pool⟩)
  | table t _ _ => exact nothing (State.SamePlaced.follows ⟨rfl, rfl, rfl, rfl⟩)
  | params new _ _ =>
    rw [State.replaceParams_eq] at nothing ⊢
    exact nothing (State.SamePlaced.follows ⟨rfl, rfl, rfl, rfl⟩)
  | powerOn => exact .inl s.powerOnValues_blank.bare
  | warmReset => exact .inl s.warmReset_blank.bare
  | configured _ _ _ _ _ _ _ _ => exact nothing (State.SamePlaced.follows ⟨rfl, rfl, rfl, rfl⟩)
  | linkUp p => exact nothing (State.SamePlaced.follows ⟨by simp, by simp, by simp, by simp⟩)
  | cut p state _ _ =>
    refine nothing (.of_sublists ?_ ?_ ?_ ⟨fun e he => ?_, ?_⟩)
    · rw [State.cut, State.setPort_nextPlace]
    · rw [State.queuedPlaces_cut]
    · rw [State.cut_tracker]
      exact List.filter_sublist.map _
    · rw [State.cut_tracker] at he
      exact held.entries e (List.mem_of_mem_filter he)
    · rw [State.cut, State.setPort_readAhead]
      exact held.pool.shed _ _
  | readJoins fields admitted horizon =>
    exact .inr ⟨_, _, admitted.fresh_entry rfl,
      (State.Follows.joinsRead fields .orderWait (by rw [horizon]; exact List.Subset.refl _)).weighReads⟩
  | @doneJoins p r e status data admitted needs tag port place places =>
    have same : s.SamePlaced ((s.spentBy p r).owedBack p r) :=
      ⟨by simp [State.spentBy], by simp, by simp, by simp⟩
    have joined := State.Follows.joins same place fun x hx => by
      rw [places] at hx
      exact .inr ((List.mem_singleton.1 hx).trans place)
    rw [port] at joined
    refine .inr ⟨_, _, admitted.fresh_entry tag, ⟨?_, ?_, ?_, joined.held.finish _ _ _⟩⟩
    · rw [State.finish_nextPlace]
      exact joined.nextPlace
    · rw [State.queuedPlaces, State.finish_queue]
      exact joined.queue
    · rw [show _ = _ from State.sameNames_finish _ _ _ _]
      exact joined.names
  | @attaches p tag n a i l fields admitted horizon _ _ =>
    have joined := State.Follows.joinsRead (s := s) (p := p) (tag := tag) (n := n) (a := a) fields .attached
      (by rw [horizon]; exact List.nil_subset _)
    refine .inr ⟨_, _, admitted.fresh_entry rfl, ⟨joined.nextPlace, joined.queue, joined.names,
      joined.held.setPool ?_⟩⟩
    exact (s.placesIn_held _).pool.attach _ _
  | writeDropped _ _ _ =>
    exact nothing (State.SamePlaced.follows
      ⟨by simp [State.spentBy], by simp, by simp, by simp⟩)
  | @writeJoins p ack tag n a data r admitted place port state ackTag link =>
    have held := s.placesIn_held [s.nextPlace]
    have pool := held.pool.struck r.line
    rw [State.takePlace_eq]
    have queue : (s.queue ++ [r]).map WriteRecord.place = s.queuedPlaces ++ [s.nextPlace] := by
      rw [List.map_append, List.map_singleton, place]
      rfl
    cases ack with
    | false =>
      refine .inr ⟨_, _, .record, ⟨by simp [State.spentBy], ?_, ?_, ⟨?_, pool⟩⟩⟩
      · exact queue ▸ List.Sublist.refl _
      · simp
      · simpa using held.entries
    | true =>
      refine .inr ⟨_, _, admitted.fresh_entry rfl, ⟨by simp [State.spentBy], ?_, ?_, ⟨?_, pool⟩⟩⟩
      · exact queue ▸ List.Sublist.refl _
      · simp [Entry.name, State.spentBy]
      · intro e he x hx
        simp only [if_true, List.mem_append, List.mem_singleton, State.spentBy_tracker] at he
        rcases he with old | rfl
        · exact held.entries e old x hx
        · refine .inr ?_
          simpa [Entry.places, State.spentBy] using hx
  | @fenceJoins p tag scope purge f admitted waits horizon =>
    have same := s.spentBy_samePlaced p (.fence tag scope purge)
    refine .inr ⟨_, _, admitted.fresh_entry rfl, State.Follows.joins same rfl fun x hx => ?_⟩
    rcases List.mem_cons.1 hx with own | queued
    · exact .inr own
    · exact .inl (.inl (horizon x queued))
  | @granted slot g _ choice =>
    cases g with
    | write w =>
      obtain ⟨⟨rest, queue⟩, _⟩ := State.headCandidate_some (State.chooseGrant_write choice)
      rw [State.grantTo_write queue] at nothing ⊢
      refine nothing (.of_sublists rfl ?_ (List.Sublist.refl _) ⟨held.entries, held.pool⟩)
      rw [s.queuedPlaces_eq, queue]
      exact List.Sublist.refl _
    | demand e r =>
      rw [State.grantTo_demand] at nothing ⊢
      refine nothing (.of_sublists rfl (List.Sublist.refl _) ?_ (held.setEntryState _ _ _))
      dsimp only
      rw [setEntryState_names]
    | fetch i => exact nothing (.of_same rfl rfl rfl (held.pool.issue i))
  | told _ _ told weighed =>
    have next := told.follows ⟨rfl, rfl, rfl, rfl⟩
    obtain ⟨_, rfl⟩ | rfl := weighed
    · exact nothing next
    · exact nothing next.weighReads
  | reclaimed slots _ =>
    have same : s.SamePlaced { s with memPort := { s.memPort with slots := slots } } := ⟨rfl, rfl, rfl, rfl⟩
    exact nothing same.follows.weighReads
  | headReady queue _ =>
    refine nothing (.of_sublists rfl ?_ (List.Sublist.refl _) ⟨held.entries, held.pool⟩)
    rw [s.queuedPlaces_eq, queue]
    exact List.Sublist.refl _
  | @readReady e t _ _ =>
    refine nothing (State.Follows.weighReads (.of_sublists rfl (List.Sublist.refl _) ?_ ?_))
    · dsimp only
      rw [setEntryState_names]
    · exact held.setEntryState _ _ _
  | lineReady line _ =>
    exact nothing (.of_same rfl rfl rfl (held.pool.change line (List.Subset.refl _)))
  | pool unit =>
    exact nothing (.of_same rfl rfl rfl (held.pool.unitMove (fun x hx => .inl (.inl hx)) unit))
  | @completionSent p _ oldest rest _ _ =>
    have same := s.setPort_samePlaced p { s.port p with link := .idle, done := rest }
    revert nothing
    generalize s.setPort p { s.port p with link := .idle, done := rest } = t at same ⊢
    intro nothing
    unfold State.freeEntry at nothing ⊢
    split at nothing
    · rename_i live
      rw [if_pos live]
      refine nothing (.of_sublists ?_ ?_ ?_ ⟨?_, ?_⟩)
      · rw [State.setPort_nextPlace]
        exact same.nextPlace
      · rw [State.queuedPlaces, State.setPort_queue, same.queue]
        exact List.Sublist.refl _
      · rw [State.setPort_tracker, ← same.tracker]
        exact List.eraseP_sublist.map _
      · intro e he
        rw [State.setPort_tracker] at he
        exact (same.placesIn held).entries e (List.mem_of_mem_eraseP he)
      · rw [State.setPort_readAhead]
        exact (same.placesIn held).pool
    · rename_i dead
      rw [if_neg dead]
      exact nothing same.follows
  | completionBegun p _ _ => exact nothing (s.setPort_samePlaced p _).follows
  | creditBegun p _ => exact nothing (s.setPort_samePlaced p _).follows
  | linkIdle p => exact nothing (s.setPort_samePlaced p _).follows

theorem Move.keeps_ordered (move : Move s u) (ordered : s.Ordered) : u.Ordered := by
  rcases move.follows with bare | ⟨_, _, fresh, next⟩
  · exact bare.ordered
  · exact ordered.follows fresh next

theorem Move.keeps_tagsDistinct (move : Move s u) (distinct : s.TagsDistinct) : u.TagsDistinct := by
  rcases move.follows with bare | ⟨_, _, fresh, next⟩
  · rw [State.TagsDistinct, bare.tracker]
    exact List.nodup_nil
  · exact distinct.follows fresh next

end Moves

end Sys2Proof.Machine
end

section
/-! The reads in the order of their eligibility, after every step (O57). -/

namespace Sys2Proof.Machine

/-! ## What eligibility reads -/

/-- What eligibility reads of a record (R51). -/
def WriteRecord.key (r : WriteRecord) : Nat × Addr × PortId :=
  (r.place, r.line, r.port)

theorem readEligible_of_keys {q q' : List WriteRecord} (h : q'.map WriteRecord.key = q.map WriteRecord.key)
    (o : List Addr) (p : PortId) (r : ReadFields) : readEligible q' o p r = readEligible q o p r := by
  have any (f : Nat × Addr × PortId → Bool) :
      (q'.any fun x => f x.key) = q.any fun x => f x.key := by
    have mapped := congrArg (List.any · f) h
    simpa only [List.any_map, Function.comp_def] using mapped
  have line : (q'.any fun x => x.place ∈ r.horizon ∧ x.line = r.line) =
      q.any fun x => x.place ∈ r.horizon ∧ x.line = r.line := any fun k => k.1 ∈ r.horizon ∧ k.2.1 = r.line
  have port : (q'.any fun x => x.place ∈ r.horizon ∧ x.port = p) =
      q.any fun x => x.place ∈ r.horizon ∧ x.port = p := any fun k => k.1 ∈ r.horizon ∧ k.2.2 = p
  unfold readEligible relaxedHolds strictHolds
  rw [line, port]

/-- A record outside a read's horizon is nothing to the read. -/
theorem readEligible_append {q : List WriteRecord} {x : WriteRecord} {r : ReadFields}
    (outside : x.place ∉ r.horizon) (o : List Addr) (p : PortId) :
    readEligible (q ++ [x]) o p r = readEligible q o p r := by
  unfold readEligible relaxedHolds strictHolds
  simp [outside]

theorem weighEntry_congr {q q' : List WriteRecord} {o o' : List Addr} {e : Entry}
    (h : ∀ r, e.kind = .read r → readEligible q' o' e.port r = readEligible q o e.port r) :
    weighEntry q' o' e = weighEntry q o e := by
  unfold weighEntry
  split
  · rename_i r kind _
    rw [h r kind]
  · rename_i r kind _
    rw [h r kind]
  · rfl

/-- Slots that hold no orphaned write before or after hold none of its lines. -/
theorem MemPort.orphanedWriteLines_congr {m m' : MemPort}
    (h : ∀ i : SlotId, m'.slots[i] = m.slots[i] ∨
      ((m'.slots[i]).isOrphaned = false ∧ (m.slots[i]).isOrphaned = false)) :
    m'.orphanedWriteLines = m.orphanedWriteLines := by
  unfold MemPort.orphanedWriteLines
  rw [MemPort.slots_eq, MemPort.slots_eq, List.filterMap_map, List.filterMap_map]
  refine List.filterMap_congr fun i _ => ?_
  rcases h i with same | ⟨after, before⟩
  · rw [Function.comp_apply, Function.comp_apply, same]
  · have none (slot : Slot) (loose : slot.isOrphaned = false) :
        (match slot with
          | .orphaned .write line => some line
          | _ => none) = none := by
      cases slot with
      | orphaned kind line => cases loose
      | _ => rfl
    exact (none _ after).trans (none _ before).symm

/-! ## Weighed reads -/

/-- Weighing changes no entry (R52). -/
def State.Weighed (s : State) : Prop :=
  ∀ e ∈ s.tracker, weighEntry s.queue s.memPort.orphanedWriteLines e = e

theorem State.readsWeighed_iff (s : State) : s.readsWeighed = true ↔ s.Ordered ∧ s.Weighed := by
  unfold State.readsWeighed
  rw [Bool.and_eq_true, State.orderSound_iff, List.all_eq_true]
  simp only [decide_eq_true_eq, State.Weighed]

/-- Weighing twice is weighing once. -/
theorem State.weighReads_weighed (s : State) : s.weighReads.Weighed := by
  intro e he
  rw [State.weighReads_tracker] at he
  obtain ⟨x, _, rfl⟩ := List.mem_map.1 he
  exact weighEntry_weighEntry _ _ x

/-- An entry that no weighing changes. -/
def Entry.Steady (e : Entry) : Prop :=
  e.state ≠ .orderWait ∧ e.state ≠ .ready

section Weighed

variable {s u : State}

/-- The keys of the records and the orphaned write slots stay, and each entry stays or is not weighed. -/
theorem State.Weighed.of_keys (weighed : s.Weighed) (queue : u.queue.map WriteRecord.key = s.queue.map WriteRecord.key)
    (lines : u.memPort.orphanedWriteLines = s.memPort.orphanedWriteLines)
    (entries : ∀ e ∈ u.tracker, e ∈ s.tracker ∨ e.Steady) : u.Weighed := by
  intro e he
  rcases entries e he with old | ⟨waits, ready⟩
  · rw [weighEntry_congr fun r _ => readEligible_of_keys queue _ _ r, lines]
    exact weighed e old
  · exact weighEntry_other _ _ e waits ready

theorem State.Weighed.of_same (weighed : s.Weighed) (queue : u.queue = s.queue)
    (memPort : u.memPort = s.memPort) (entries : ∀ e ∈ u.tracker, e ∈ s.tracker ∨ e.Steady) : u.Weighed :=
  weighed.of_keys (by rw [queue]) (by rw [memPort]) entries

theorem Entry.steady_of_done {e : Entry} {status : Status} {data : List Byte}
    (h : e.state = .done status data) : e.Steady := by
  rw [Entry.Steady, h]
  exact ⟨fun h => (nomatch h), fun h => (nomatch h)⟩

theorem setEntryState_steady {tracker : List Entry} {place : Nat} {state : EntryState}
    (waits : state ≠ .orderWait) (ready : state ≠ .ready) :
    ∀ e ∈ setEntryState tracker place state, e ∈ tracker ∨ e.Steady := by
  intro e he
  rcases mem_setEntryState.1 he with ⟨old, _⟩ | ⟨_, _, _, rfl⟩
  · exact .inl old
  · exact .inr ⟨waits, ready⟩

theorem State.finish_steady (s : State) (place : Nat) (status : Status) (data : List Byte) :
    ∀ e ∈ (s.finish place status data).tracker, e ∈ s.tracker ∨ e.Steady := by
  rw [State.finish_tracker]
  exact setEntryState_steady (fun h => (nomatch h)) (fun h => (nomatch h))

theorem State.Weighed.finish (weighed : s.Weighed) (place : Nat) (status : Status) (data : List Byte) :
    (s.finish place status data).Weighed :=
  weighed.of_same (by simp) (by simp) (s.finish_steady place status data)

/-- The head record changes in its state, and an owner takes or leaves a slot. -/
theorem State.Weighed.of_head (weighed : s.Weighed) {head head' : WriteRecord} {rest : List WriteRecord}
    (before : s.queue = head :: rest) (after : u.queue = head' :: rest) (key : head'.key = head.key)
    (lines : u.memPort.orphanedWriteLines = s.memPort.orphanedWriteLines)
    (tracker : u.tracker = s.tracker) : u.Weighed := by
  refine weighed.of_keys ?_ lines fun e he => .inl (tracker ▸ he)
  rw [before, after, List.map_cons, List.map_cons, key]

theorem State.depart_weighed (s : State) (rest : List WriteRecord) (rs : List Report) :
    (s.depart rest rs).Weighed := by
  rw [State.depart_eq]
  exact State.weighReads_weighed _

theorem Told.weighed {f v : State} {owner : SlotOwner} (told : Told s f owner v) (weighed : f.Weighed)
    (queue : f.queue = s.queue) : v.Weighed := by
  cases told with
  | nobody _ => exact weighed
  | ended place status data => exact weighed.finish place status data
  | waits n t found kind =>
    refine weighed.of_same rfl rfl fun x' hx' => ?_
    obtain ⟨x, hx, rfl⟩ := List.mem_map.1 hx'
    split
    · exact .inr ⟨fun h => (nomatch h), fun h => (nomatch h)⟩
    · exact .inl hx
  | departs d g queue => exact f.depart_weighed _ _
  | headWaits n t before => exact weighed.of_head (queue.trans before) rfl rfl rfl rfl
  | @fetchEnds i l ra status data line ends =>
    have ended : State.Weighed (l.attached.foldl (fun t x => t.finish x status (data t x)) f) :=
      foldl_preserves State.Weighed _ (fun t x ht => ht.finish x status (data t x)) l.attached f weighed
    exact ended.of_same rfl rfl fun _ he => .inl he
  | fetchWaits n t line => exact weighed.of_same rfl rfl fun _ he => .inl he

/-- A free slot that becomes BUSY, and a BUSY slot that becomes FREE, hold no orphaned write. -/
theorem State.orphanedWriteLines_set {m : MemPort} {i : SlotId} {slot : Slot} {m' : MemPort}
    (slots : m'.slots = m.slots.set i slot) (before : (m.slots[i]).isOrphaned = false)
    (after : slot.isOrphaned = false) : m'.orphanedWriteLines = m.orphanedWriteLines := by
  refine MemPort.orphanedWriteLines_congr fun j => ?_
  rw [slots, set_getElem_fin]
  split
  · rename_i same
    rw [same]
    exact .inr ⟨after, before⟩
  · exact .inl rfl

theorem Slot.withoutEntries_orphaned (gone : List Nat) (slot : Slot) :
    slot.withoutEntries gone = slot ∨
      ((slot.withoutEntries gone).isOrphaned = false ∧ slot.isOrphaned = false) := by
  unfold Slot.withoutEntries
  split
  · exact .inr ⟨rfl, rfl⟩
  · exact .inl rfl

theorem Move.keeps_weighed (move : Move s u) (ordered : s.Ordered) (weighed : s.Weighed) : u.Weighed := by
  cases move with
  | quiet same =>
    obtain ⟨queue, tracker, _⟩ := State.fields_of_bare same
    have slots := (State.memPort_slots_of_bare same).1
    exact weighed.of_keys (by rw [queue]) (MemPort.orphanedWriteLines_congr fun i => .inl (by rw [slots]))
      fun e he => .inl (tracker ▸ he)
  | table t _ _ => exact weighed.of_same rfl rfl fun _ he => .inl he
  | params new _ _ =>
    rw [State.replaceParams_eq]
    exact weighed.of_same rfl rfl fun _ he => .inl he
  | powerOn => exact fun e he => by cases he
  | warmReset =>
    intro e he
    rw [s.warmReset_blank.tracker] at he
    cases he
  | configured _ _ _ _ _ _ _ _ => exact weighed.of_same rfl rfl fun _ he => .inl he
  | linkUp p => exact weighed.of_same (by simp) (by simp) fun e he => .inl (by simpa using he)
  | cut p state _ _ =>
    refine weighed.of_keys ?_ ?_ fun e he => ?_
    · rw [State.cut, State.setPort_queue, List.map_map]
      refine List.map_congr_left fun r _ => ?_
      rw [Function.comp_apply, WriteRecord.unlinked]
      split <;> rfl
    · rw [State.cut, State.setPort_memPort]
      refine MemPort.orphanedWriteLines_congr fun i => ?_
      rw [mapVec_getElem_fin]
      exact Slot.withoutEntries_orphaned _ _
    · rw [State.cut_tracker] at he
      exact .inl (List.mem_of_mem_filter he)
  | readJoins _ _ _ => exact State.weighReads_weighed _
  | @doneJoins p r e status data _ _ _ _ place _ =>
    refine weighed.of_same (by simp) (by simp) fun x hx => ?_
    rw [State.finish_tracker, State.addEntry_tracker, State.owedBack_tracker, State.spentBy_tracker] at hx
    rcases mem_setEntryState.1 hx with ⟨old, other⟩ | ⟨_, _, _, rfl⟩
    · rcases List.mem_append.1 old with mem | new
      · exact .inl mem
      · rw [List.mem_singleton.1 new] at other
        exact absurd place other
    · exact .inr (Entry.steady_of_done rfl)
  | attaches fields _ _ _ _ =>
    refine weighed.of_same (by simp [State.addRead]) (by simp [State.addRead]) fun x hx => ?_
    simp only [State.addRead, State.addEntry_tracker, State.spentBy_tracker, List.mem_append,
      List.mem_singleton] at hx
    rcases hx with old | rfl
    · exact .inl old
    · exact .inr ⟨fun h => (nomatch h), fun h => (nomatch h)⟩
  | writeDropped _ _ _ => exact weighed.of_same (by simp) (by simp) fun e he => .inl (by simpa using he)
  | @writeJoins p ack tag n a data r admitted place port state ackTag link =>
    rw [State.takePlace_eq]
    intro e he
    have old (he : e ∈ s.tracker) :
        weighEntry (s.queue ++ [r]) s.memPort.orphanedWriteLines e = e := by
      refine (weighEntry_congr fun f kind => readEligible_append ?_ _ _).trans (weighed e he)
      intro horizon
      have below := ordered.below r.place (.inr (.inl ⟨e, he, by
        simp only [Entry.places, kind]
        exact List.mem_cons_of_mem _ horizon⟩))
      omega
    simp only [State.spentBy_tracker, List.mem_append] at he
    simp only [State.spentBy_memPort]
    rcases he with he | new
    · exact old he
    · cases ack with
      | true =>
        rw [List.mem_singleton.1 new]
        exact weighEntry_other _ _ _ (fun h => (nomatch h)) (fun h => (nomatch h))
      | false => cases new
  | fenceJoins f _ _ _ =>
    refine weighed.of_same (by simp) (by simp) fun x hx => ?_
    simp only [State.addEntry_tracker, State.spentBy_tracker, List.mem_append, List.mem_singleton] at hx
    rcases hx with old | rfl
    · exact .inl old
    · exact .inr ⟨fun h => (nomatch h), fun h => (nomatch h)⟩
  | @granted slot g free choice =>
    have before : (s.memPort.slots[slot]).isOrphaned = false := by
      rw [MemPort.lowestFree_some free]
      rfl
    cases g with
    | write w =>
      obtain ⟨⟨rest, queue⟩, _⟩ := State.headCandidate_some (State.chooseGrant_write choice)
      rw [State.grantTo_write queue]
      exact weighed.of_head queue rfl rfl (State.orphanedWriteLines_set rfl before rfl) rfl
    | demand e r =>
      rw [State.grantTo_demand]
      exact weighed.of_keys rfl (State.orphanedWriteLines_set rfl before rfl)
        (setEntryState_steady (fun h => (nomatch h)) (fun h => (nomatch h)))
    | fetch i =>
      rw [State.grantTo_fetch]
      exact weighed.of_keys rfl (State.orphanedWriteLines_set rfl before rfl) fun _ he => .inl he
  | @told i owner line deadline slot v _ busy _ told ends =>
    obtain ⟨rfl, rfl⟩ | rfl := ends
    · have lines : (s.setSlot i .free).memPort.orphanedWriteLines = s.memPort.orphanedWriteLines :=
        State.orphanedWriteLines_set rfl (by rw [busy]; rfl) rfl
      exact told.weighed (weighed.of_keys rfl lines fun _ he => .inl he) rfl
    · exact State.weighReads_weighed _
  | reclaimed _ _ => exact State.weighReads_weighed _
  | headReady queue _ => exact weighed.of_head queue rfl rfl rfl rfl
  | readReady _ _ => exact State.weighReads_weighed _
  | lineReady _ _ => exact weighed.of_same rfl rfl fun _ he => .inl he
  | pool _ => exact weighed.of_same rfl rfl fun _ he => .inl he
  | completionBegun p _ _ => exact weighed.of_same (by simp) (by simp) fun e he => .inl (by simpa using he)
  | @completionSent p _ oldest rest _ _ =>
    refine weighed.of_same ?_ ?_ fun e he => .inl ?_
    · unfold State.freeEntry
      split <;> simp
    · unfold State.freeEntry
      split <;> simp
    · simpa using State.freeEntry_tracker _ _ _ e he
  | creditBegun p _ => exact weighed.of_same (by simp) (by simp) fun e he => .inl (by simpa using he)
  | linkIdle p => exact weighed.of_same (by simp) (by simp) fun e he => .inl (by simpa using he)

end Weighed

/-- Settles O57: records and entries join at the end of the acceptance order with a tag that no live entry of the port
holds, and each move that changes a read's eligibility weighs the reads. -/
theorem stepKeepsReadOrdering : Obligations.StepKeepsReadOrdering := by
  refine ⟨stepKeeps_of_move _ State.orderSound_iff Move.keeps_ordered, ?_,
    stepKeeps_of_move _ State.readsWeighed_iff fun move h =>
      ⟨move.keeps_ordered h.1, move.keeps_weighed h.1 h.2⟩⟩
  have tags : StepKeeps State.tagsUnique :=
    stepKeeps_of_move _ (fun _ => decide_eq_true_iff) Move.keeps_tagsDistinct
  exact (stepKeeps_of_move _ State.orderSound_iff Move.keeps_ordered).and tags

end Sys2Proof.Machine
end

section
/-! SUPPORT. The pool's law (R70), through every operation of the read-ahead unit (O59). -/

namespace Sys2Proof.Machine

/-- The lines of the pool: an owner is an ACTIVE stream that lists the line, a VALID line has an owner and no attached
reads, and a stale line is ownerless unless its target is in `W`. -/
structure Line.Lawful (l : Line) (W : Addr → Prop) : Prop where
  valid : l.isValid = true → l.owner.isSome = true ∧ l.attached = []
  stale : l.stale = true → l.owner = none ∨ W l.target

/-- An ACTIVE stream by itself: its depth, its lines within it and each once (R68). -/
structure Stream.Lawful (st : Stream) : Prop where
  pos : 1 ≤ st.depth
  depth : st.depth ≤ 4
  short : st.owned.length ≤ st.depth
  once : st.owned.Nodup

/-- The pool's law (R70). Lines with targets in `W` may be stale and owned: it is empty but within an invalidation. -/
structure ReadAhead.Lawful (W : Addr → Prop) (ra : ReadAhead) : Prop where
  lines : ∀ (i : LineId) (l : Line), ra.lines[i] = some l → l.Lawful W
  streams : ∀ (k : StreamId) (st : Stream), ra.streams[k] = some st → st.Lawful
  owner : ∀ (i : LineId) (l : Line) (k : StreamId), ra.lines[i] = some l → l.owner = some k →
    ∃ st, ra.streams[k] = some st ∧ i ∈ st.owned
  owned : ∀ (k : StreamId) (st : Stream) (i : LineId), ra.streams[k] = some st → i ∈ st.owned →
    ∃ l, ra.lines[i] = some l ∧ l.owner = some k

/-- A window is ENABLED or FROZEN. -/
def WindowTable.InUse (t : WindowTable) (n : WindowId) : Prop :=
  t.windows[n].state ≠ .disabled

/-- The windows of ACTIVE streams are not DISABLED. -/
def ReadAhead.InWindows (t : WindowTable) (ra : ReadAhead) : Prop :=
  ∀ (k : StreamId) (st : Stream), ra.streams[k] = some st → t.InUse st.window

/-- No line is stale and owned. -/
abbrev noTarget : Addr → Prop := fun _ => False

/-! ## The law as it is computed -/

theorem ReadAhead.lineSound_iff (ra : ReadAhead) (i : LineId) : ra.lineSound i = true ↔
    ∀ l, ra.lines[i] = some l → l.Lawful noTarget ∧
      ∀ k, l.owner = some k → ∃ st, ra.streams[k] = some st ∧ i ∈ st.owned := by
  unfold ReadAhead.lineSound
  cases line : ra.lines[i] with
  | none => simp
  | some l =>
    simp only [Option.some.injEq, forall_eq', Bool.and_eq_true, Bool.or_eq_true, Bool.not_eq_true',
      List.isEmpty_iff, Option.isNone_iff_eq_none]
    cases own : l.owner with
    | none =>
      simp only [reduceCtorEq, false_implies, implies_true, and_true, true_and]
      exact ⟨fun ⟨valid, _⟩ => ⟨fun h => by simp [h] at valid, fun _ => .inl own⟩,
        fun lawful => ⟨.inl (by
          by_contra h
          have := (lawful.valid (by simpa using h)).1
          simp [own] at this), .inr trivial⟩⟩
    | some k =>
      simp only [Option.any_eq_true, List.contains_iff_mem, Option.some.injEq, forall_eq']
      constructor
      · rintro ⟨⟨lists, valid⟩, stale⟩
        refine ⟨⟨fun h => ?_, fun h => ?_⟩, lists⟩
        · rw [h] at valid
          simpa [own] using valid
        · rw [h] at stale
          simp at stale
      · rintro ⟨lawful, lists⟩
        refine ⟨⟨lists, ?_⟩, ?_⟩
        · cases h : l.isValid with
          | false => exact .inl rfl
          | true => exact .inr ⟨rfl, (lawful.valid h).2⟩
        · cases h : l.stale with
          | false => exact .inl rfl
          | true =>
            rcases lawful.stale h with none | no
            · rw [own] at none
              cases none
            · exact no.elim

theorem State.streamSound_iff (s : State) (k : StreamId) : s.streamSound k = true ↔
    ∀ st, s.readAhead.streams[k] = some st → st.Lawful ∧
      (∀ i ∈ st.owned, ∃ l, s.readAhead.lines[i] = some l ∧ l.owner = some k) ∧
      s.table.windows[st.window].state ≠ .disabled := by
  unfold State.streamSound
  cases stream : s.readAhead.streams[k] with
  | none => simp
  | some st =>
    simp only [Option.some.injEq, forall_eq', Bool.and_eq_true, decide_eq_true_eq, List.all_eq_true,
      ReadAhead.lineIs_true, Bool.not_eq_true', decide_eq_false_iff_not]
    exact ⟨fun ⟨⟨⟨⟨⟨pos, depth⟩, short⟩, once⟩, owned⟩, window⟩ => ⟨⟨pos, depth, short, once⟩, owned, window⟩,
      fun ⟨⟨pos, depth, short, once⟩, owned, window⟩ => ⟨⟨⟨⟨⟨pos, depth⟩, short⟩, once⟩, owned⟩, window⟩⟩

/-- The pool's law with what it rests on. -/
structure State.Pooled (s : State) : Prop where
  table : s.table.Sound
  blank : s.startUp.partState = .loading → s.Blank
  lawful : s.readAhead.Lawful noTarget
  windows : s.readAhead.InWindows s.table

theorem State.tableSound_iff_sound (s : State) : s.tableSound = true ↔ s.table.Sound :=
  s.tableSound_iff

theorem State.poolSound_iff (s : State) : s.poolSound = true ↔ s.Pooled := by
  unfold State.poolSound
  simp only [Bool.and_eq_true, List.all_eq_true, ReadAhead.lineSound_iff, State.streamSound_iff,
    State.loadingEmpty_iff, State.tableSound_iff_sound, mem_allLines, mem_allStreams, forall_const]
  constructor
  · rintro ⟨⟨⟨table, blank⟩, lines⟩, streams⟩
    exact ⟨table, blank, ⟨fun i l line => (lines i l line).1, fun k st stream => (streams k st stream).1,
      fun i l k line own => (lines i l line).2 k own, fun k st i stream mem => (streams k st stream).2.1 i mem⟩,
      fun k st stream => (streams k st stream).2.2⟩
  · rintro ⟨table, blank, ⟨lines, streams, owner, owned⟩, windows⟩
    exact ⟨⟨⟨table, blank⟩, fun i l line => ⟨lines i l line, fun k own => owner i l k line own⟩⟩,
      fun k st stream => ⟨streams k st stream, fun i mem => owned k st i stream mem, windows k st stream⟩⟩

/-! ## Operations of the pool -/

section Operations

variable {W : Addr → Prop} {ra : ReadAhead} {t : WindowTable}

/-- Each line keeps its owner and its law, or was ownerless and is FREE now. -/
theorem ReadAhead.Lawful.of_lines (lawful : ra.Lawful W) {ra' : ReadAhead} {W' : Addr → Prop}
    (streams : ra'.streams = ra.streams)
    (after : ∀ (i : LineId) (l' : Line), ra'.lines[i] = some l' → l'.Lawful W' ∧
      (l'.owner = none ∨ ∃ l, ra.lines[i] = some l ∧ l.owner = l'.owner))
    (kept : ∀ (i : LineId) (l : Line) (k : StreamId), ra.lines[i] = some l → l.owner = some k →
      ∃ l', ra'.lines[i] = some l' ∧ l'.owner = some k) : ra'.Lawful W' where
  lines i l' line := (after i l' line).1
  streams k st stream := lawful.streams k st (by rwa [streams] at stream)
  owner i l' k line own := by
    rw [streams]
    rcases (after i l' line).2 with none | ⟨l, before, same⟩
    · rw [own] at none
      cases none
    · exact lawful.owner i l k before (same.trans own)
  owned k st i stream mem := by
    rw [streams] at stream
    obtain ⟨l, line, own⟩ := lawful.owned k st i stream mem
    exact kept i l k line own

theorem ReadAhead.Lawful.mapLines (lawful : ra.Lawful W) {f : Line → Option Line} {W' : Addr → Prop}
    (after : ∀ (i : LineId) (l l' : Line), ra.lines[i] = some l → f l = some l' → l'.Lawful W' ∧ l'.owner = l.owner)
    (freed : ∀ (i : LineId) (l : Line), ra.lines[i] = some l → f l = none → l.owner = none) :
    (ra.mapLines f).Lawful W' := by
  refine lawful.of_lines rfl (fun i l' line => ?_) fun i l k line own => ?_
  · rw [ReadAhead.mapLines_lines, Option.bind_eq_some_iff] at line
    obtain ⟨l, before, becomes⟩ := line
    obtain ⟨law, same⟩ := after i l l' before becomes
    exact ⟨law, .inr ⟨l, before, same.symm⟩⟩
  · rw [ReadAhead.mapLines_lines, line, Option.bind_some]
    cases becomes : f l with
    | none =>
      rw [freed i l line becomes] at own
      cases own
    | some l' => exact ⟨l', rfl, ((after i l l' line becomes).2).trans own⟩

/-- A line changes within its law and keeps its owner. -/
theorem ReadAhead.Lawful.change (lawful : ra.Lawful W) {i : LineId} {l l' : Line} (line : ra.lines[i] = some l)
    (law : l'.Lawful W) (own : l'.owner = l.owner) : (ra.setLine i (some l')).Lawful W := by
  refine lawful.of_lines rfl (fun j m after => ?_) fun j m k before owned => ?_
  · rw [ReadAhead.setLine_lines] at after
    split at after
    · rename_i same
      cases after
      exact ⟨law, .inr ⟨l, same ▸ line, own.symm⟩⟩
    · exact ⟨lawful.lines j m after, .inr ⟨m, after, rfl⟩⟩
  · rw [ReadAhead.setLine_lines]
    split
    · rename_i same
      rw [same, line] at before
      cases before
      exact ⟨l', rfl, own.trans owned⟩
    · exact ⟨m, before, owned⟩

/-- An ownerless line becomes FREE. -/
theorem ReadAhead.Lawful.free (lawful : ra.Lawful W) {i : LineId}
    (loose : ∀ l, ra.lines[i] = some l → l.owner = none) : (ra.setLine i none).Lawful W := by
  refine lawful.of_lines rfl (fun j m after => ?_) fun j m k before owned => ?_
  · rw [ReadAhead.setLine_lines] at after
    split at after
    · cases after
    · exact ⟨lawful.lines j m after, .inr ⟨m, after, rfl⟩⟩
  · rw [ReadAhead.setLine_lines]
    split
    · rename_i same
      rw [loose m (same ▸ before)] at owned
      cases owned
    · exact ⟨m, before, owned⟩

/-- What a release leaves is ownerless. -/
theorem Line.released_some {l l' : Line} (h : l.released = some l') :
    l' = { l with owner := none } ∧ l.isValid = false ∧ (l.isPending = true → l.attached ≠ []) := by
  unfold Line.released at h
  unfold Line.isValid Line.isPending
  split at h
  · cases h
  · rename_i state
    split at h
    · cases h
    · rename_i some
      cases h
      rw [state]
      exact ⟨rfl, rfl, fun _ => by simpa using some⟩
  · rename_i state
    cases h
    rw [state]
    exact ⟨rfl, rfl, fun h => (nomatch h)⟩

/-- A released line that stays is lawful whatever its target. -/
theorem Line.released_lawful {l l' : Line} (h : l.released = some l') (W : Addr → Prop) : l'.Lawful W := by
  obtain ⟨rfl, notValid, _⟩ := Line.released_some h
  refine ⟨fun valid => ?_, fun _ => .inl rfl⟩
  change l.isValid = true at valid
  rw [notValid] at valid
  cases valid

theorem Line.released_owner {l l' : Line} (h : l.released = some l') : l'.owner = none := by
  obtain ⟨rfl, _⟩ := Line.released_some h
  rfl

/-- A stream keeps part of its lines, or none and is FREE; the others are released (R74, R75, R87). -/
theorem ReadAhead.Lawful.give (lawful : ra.Lawful W) {k : StreamId} {st : Stream} {gone : List LineId}
    {next : Option Stream} (stream : ra.streams[k] = some st) (sub : gone ⊆ st.owned)
    (law : ∀ st', next = some st' → st'.Lawful)
    (rest : ∀ i, i ∈ st.owned → i ∉ gone → ∃ st', next = some st' ∧ i ∈ st'.owned)
    (kept : ∀ st' i, next = some st' → i ∈ st'.owned → i ∈ st.owned ∧ i ∉ gone) :
    ((ra.releaseAll gone).setStream k next).Lawful W := by
  have lines (i : LineId) : ((ra.releaseAll gone).setStream k next).lines[i] =
      if i ∈ gone then ra.lines[i].bind Line.released else ra.lines[i] := by
    rw [ReadAhead.setStream_lines, ReadAhead.releaseAll_lines]
  have streams (j : StreamId) : ((ra.releaseAll gone).setStream k next).streams[j] =
      if j = k then next else ra.streams[j] := by
    rw [ReadAhead.setStream_streams, ReadAhead.releaseAll_streams]
  refine ⟨fun i l' line => ?_, fun j st' stream' => ?_, fun i l' j line own => ?_, fun j st' i stream' mem => ?_⟩
  · rw [lines] at line
    split at line
    · obtain ⟨l, _, becomes⟩ := Option.bind_eq_some_iff.1 line
      exact Line.released_lawful becomes W
    · exact lawful.lines i l' line
  · rw [streams] at stream'
    split at stream'
    · exact law st' stream'
    · exact lawful.streams j st' stream'
  · rw [lines] at line
    split at line
    · obtain ⟨l, _, becomes⟩ := Option.bind_eq_some_iff.1 line
      rw [Line.released_owner becomes] at own
      cases own
    · rename_i stays
      obtain ⟨st₀, before, mem⟩ := lawful.owner i l' j line own
      rw [streams]
      split
      · rename_i same
        rw [same, stream] at before
        cases before
        exact rest i mem stays
      · exact ⟨st₀, before, mem⟩
  · rw [streams] at stream'
    rw [lines]
    split at stream'
    · rename_i same
      subst same
      obtain ⟨mem₀, stays⟩ := kept st' i stream' mem
      rw [if_neg stays]
      exact lawful.owned j st i stream mem₀
    · rename_i other
      obtain ⟨l, line, own⟩ := lawful.owned j st' i stream' mem
      rw [if_neg]
      · exact ⟨l, line, own⟩
      · intro taken
        obtain ⟨l₂, line₂, own₂⟩ := lawful.owned k st i stream (sub taken)
        rw [line] at line₂
        cases line₂
        rw [own] at own₂
        cases own₂
        exact other rfl

theorem ReadAhead.Lawful.retire (lawful : ra.Lawful W) (k : StreamId) : (ra.retire k).Lawful W := by
  unfold ReadAhead.retire
  split
  · exact lawful
  · rename_i stream
    exact lawful.give stream (List.Subset.refl _) (fun _ h => (nomatch h)) (fun i mem out => absurd mem out)
      fun _ _ h => (nomatch h)

theorem ReadAhead.Lawful.retireWhere (lawful : ra.Lawful W) (f : Stream → Bool) :
    (ra.retireWhere f).Lawful W :=
  ReadAhead.retireWhere_keeps (ReadAhead.Lawful W) (fun _ k h => h.retire k) f ra lawful

/-- The lines of a retired stream are ownerless or FREE. -/
theorem ReadAhead.Lawful.retireOwner (lawful : ra.Lawful W) {i : LineId} {l : Line}
    (line : ra.lines[i] = some l) :
    (ra.retireOwner l).Lawful W ∧ ∀ l', (ra.retireOwner l).lines[i] = some l' → l'.owner = none := by
  unfold ReadAhead.retireOwner
  cases own : l.owner with
  | none =>
    refine ⟨lawful, fun l' line' => ?_⟩
    rw [line] at line'
    cases line'
    exact own
  | some k =>
    refine ⟨lawful.retire k, fun l' line' => ?_⟩
    obtain ⟨st, stream, mem⟩ := lawful.owner i l k line own
    change (ra.retire k).lines[i] = some l' at line'
    rw [ReadAhead.retire_of_some stream, ReadAhead.setStream_lines, ReadAhead.releaseAll_lines,
      if_pos mem] at line'
    obtain ⟨_, _, becomes⟩ := Option.bind_eq_some_iff.1 line'
    exact Line.released_owner becomes

/-- The stale mark falls on lines of the written line alone (R86). -/
theorem ReadAhead.Lawful.staled (lawful : ra.Lawful noTarget) (written : Addr) :
    (ra.mapLines (Line.staled written)).Lawful (· = written) := by
  refine lawful.mapLines (fun i l l' line becomes => ?_) fun i l _ becomes => by cases becomes
  have law := lawful.lines i l line
  unfold Line.staled at becomes
  cases becomes
  split
  · rename_i struck
    refine ⟨⟨fun valid => ?_, fun _ => .inr struck.1⟩, rfl⟩
    change l.isValid = true at valid
    rw [struck.2] at valid
    cases valid
  · exact ⟨⟨law.valid, fun stale => (law.stale stale).imp id fun no => no.elim⟩, rfl⟩

theorem ReadAhead.Lawful.withoutReads (lawful : ra.Lawful W) (gone : List Nat) :
    (ra.mapLines (Line.withoutReads gone)).Lawful W := by
  refine lawful.mapLines (fun i l l' line becomes => ?_) fun i l _ becomes => by cases becomes
  have law := lawful.lines i l line
  cases becomes
  refine ⟨⟨fun valid => ?_, law.stale⟩, rfl⟩
  obtain ⟨own, attached⟩ := law.valid valid
  exact ⟨own, by rw [attached]; rfl⟩

/-- A write's invalidation leaves no line that is stale and owned (R86). -/
theorem ReadAhead.Lawful.struck (lawful : ra.Lawful noTarget) (written : Addr) :
    (ra.struck written).Lawful noTarget := by
  have staled := lawful.staled written
  have retired := staled.retireWhere (ra.ownsTarget written)
  have loose : ∀ (i : LineId) (l : Line),
      ((ra.mapLines (Line.staled written)).retireWhere (ra.ownsTarget written)).lines[i] = some l →
      l.target = written → l.owner = none := by
    intro i l line target
    rw [ReadAhead.retireWhere_lines] at line
    split at line
    · obtain ⟨_, _, becomes⟩ := Option.bind_eq_some_iff.1 line
      exact Line.released_owner becomes
    · rename_i stays
      cases own : l.owner with
      | none => rfl
      | some k =>
        obtain ⟨st, stream, mem⟩ := staled.owner i l k line own
        refine absurd ⟨k, ?_⟩ stays
        rw [stream, Option.any_some, Bool.and_eq_true, decide_eq_true_eq]
        refine ⟨?_, mem⟩
        unfold ReadAhead.ownsTarget
        rw [List.any_eq_true]
        rw [ReadAhead.mapLines_lines, Option.bind_eq_some_iff] at line
        obtain ⟨before, line, becomes⟩ := line
        refine ⟨i, mem, ?_⟩
        rw [ReadAhead.lineIs_of_some line, ← target]
        unfold Line.staled at becomes
        cases becomes
        split <;> simp
  unfold ReadAhead.struck
  refine retired.mapLines (fun i l l' line becomes => ?_) fun i l line becomes => ?_
  · unfold Line.cancelStale at becomes
    split at becomes <;> cases becomes
    have law := retired.lines i l line
    exact ⟨⟨law.valid, fun stale => .inl ((law.stale stale).elim id fun target => loose i l line target)⟩, rfl⟩
  · unfold Line.cancelStale at becomes
    split at becomes
    · rename_i cancelled
      exact loose i l line cancelled.1
    · cases becomes

theorem ReadAhead.Lawful.shed (lawful : ra.Lawful noTarget) (p : PortId) (gone : List Nat) :
    (ra.shed p gone).Lawful noTarget := by
  have left := lawful.withoutReads gone
  have retired := left.retireWhere fun st => decide (st.port = p)
  unfold ReadAhead.shed
  refine retired.mapLines (fun i l l' line becomes => ?_) fun i l line becomes => ?_
  · unfold Line.cancelUnwanted at becomes
    split at becomes <;> cases becomes
    exact ⟨retired.lines i l line, rfl⟩
  · unfold Line.cancelUnwanted at becomes
    split at becomes
    · rename_i cancelled
      exact cancelled.2.1.elim id fun stale => ((retired.lines i l line).stale stale).elim id fun no => no.elim
    · cases becomes

theorem ReadAhead.Lawful.dropRecords (lawful : ra.Lawful W) (departed : List Nat) :
    (ra.dropRecords departed).Lawful W := by
  refine lawful.mapLines (fun i l l' line becomes => ?_) fun i l _ becomes => by cases becomes
  have law := lawful.lines i l line
  cases becomes
  exact ⟨⟨law.valid, law.stale⟩, rfl⟩

/-- A line that is not VALID is lawful whatever its state and its list are. -/
theorem Line.Lawful.of_invalid {l l' : Line} (law : l.Lawful W) (invalid : l'.isValid = false)
    (stale : l'.stale = l.stale) (own : l'.owner = l.owner) (target : l'.target = l.target) : l'.Lawful W := by
  refine ⟨fun valid => ?_, fun h => ?_⟩
  · rw [invalid] at valid
    cases valid
  · rw [own, target]
    exact law.stale (stale ▸ h)

theorem ReadAhead.Lawful.lineEnd (lawful : ra.Lawful noTarget) {i : LineId} {l : Line} {ra' : ReadAhead}
    (line : ra.lines[i] = some l) (ends : LineEnd ra i l ra') : ra'.Lawful noTarget := by
  cases ends with
  | valid poison data owned fresh =>
    refine lawful.change line ⟨fun _ => ⟨owned, rfl⟩, fun stale => ?_⟩ rfl
    change l.stale = true at stale
    rw [fresh] at stale
    cases stale
  | unwanted loose =>
    refine lawful.free fun l' line' => ?_
    rw [line] at line'
    cases line'
    exact loose.elim id fun stale => ((lawful.lines i l line).stale stale).elim id fun no => no.elim
  | failed =>
    obtain ⟨retired, loose⟩ := lawful.retireOwner line
    exact retired.free loose

end Operations

end Sys2Proof.Machine
end

section
/-! SUPPORT. Every move keeps the pool's law (O59). -/

namespace Sys2Proof.Machine

/-! ## Turns of the unit -/

section Unit

variable {W : Addr → Prop} {ra : ReadAhead} {t : WindowTable}

/-- A new stream owns no line (R79). -/
theorem ReadAhead.Lawful.open (lawful : ra.Lawful W) {k : StreamId} (free : ra.streams[k] = none)
    {st : Stream} (law : st.Lawful) (owned : st.owned = []) : (ra.setStream k (some st)).Lawful W where
  lines := lawful.lines
  streams j st' stream := by
    rw [ReadAhead.setStream_streams] at stream
    split at stream
    · cases stream
      exact law
    · exact lawful.streams j st' stream
  owner i l j line own := by
    obtain ⟨st', stream, mem⟩ := lawful.owner i l j line own
    rw [ReadAhead.setStream_streams, if_neg]
    · exact ⟨st', stream, mem⟩
    · rintro rfl
      rw [free] at stream
      cases stream
  owned j st' i stream mem := by
    rw [ReadAhead.setStream_streams] at stream
    split at stream
    · cases stream
      rw [owned] at mem
      cases mem
    · exact lawful.owned j st' i stream mem

/-- A new line goes to the end of its stream (R76). -/
theorem ReadAhead.Lawful.createLine (lawful : ra.Lawful W) (env : FetchEnv) {k : StreamId} {st : Stream}
    {i : LineId} (stream : ra.streams[k] = some st) (short : st.owned.length < st.depth)
    (free : ra.lines[i] = none) : (ra.createLine env k st i).Lawful W := by
  have law := lawful.streams k st stream
  have unowned (j : StreamId) (st' : Stream) (h : ra.streams[j] = some st') : i ∉ st'.owned := by
    intro mem
    obtain ⟨l, line, _⟩ := lawful.owned j st' i h mem
    rw [free] at line
    cases line
  refine ⟨fun j l line => ?_, fun j st' stream' => ?_, fun j l m line own => ?_, fun j st' m stream' mem => ?_⟩
  · rw [ReadAhead.createLine_lines] at line
    split at line
    · cases line
      exact ⟨fun h => (nomatch h), fun h => (nomatch h)⟩
    · exact lawful.lines j l line
  · rw [ReadAhead.createLine_streams] at stream'
    split at stream'
    · cases stream'
      refine ⟨law.pos, law.depth, ?_, ?_⟩
      · rw [List.length_append, List.length_singleton]
        exact short
      · exact List.nodup_append.2 ⟨law.once, List.nodup_singleton i, fun x hx y hy same => by
          rw [List.mem_singleton.1 hy] at same
          exact unowned k st stream (same ▸ hx)⟩
    · exact lawful.streams j st' stream'
  · rw [ReadAhead.createLine_lines] at line
    rw [ReadAhead.createLine_streams]
    split at line
    · rename_i same
      cases line
      cases own
      rw [if_pos rfl]
      exact ⟨_, rfl, by rw [same]; exact List.mem_append_right _ (List.mem_singleton_self i)⟩
    · obtain ⟨st', stream', mem⟩ := lawful.owner j l m line own
      split
      · rename_i same
        rw [same, stream] at stream'
        cases stream'
        exact ⟨_, rfl, List.mem_append_left _ mem⟩
      · exact ⟨st', stream', mem⟩
  · rw [ReadAhead.createLine_streams] at stream'
    rw [ReadAhead.createLine_lines]
    split at stream'
    · rename_i same
      cases stream'
      rcases List.mem_append.1 mem with old | new
      · rw [if_neg fun (h : m = i) => unowned k st stream (h ▸ old), same]
        exact lawful.owned k st m stream old
      · rw [if_pos (List.mem_singleton.1 new), same]
        exact ⟨_, rfl, rfl⟩
    · rw [if_neg fun (h : m = i) => unowned j st' stream' (h ▸ mem)]
      exact lawful.owned j st' m stream' mem

theorem Window.depth_of_sound {w : Window} (sound : w.sound = true) : w.fields.depth ≤ 4 := by
  obtain ⟨valid, _⟩ := (Window.sound_iff w).1 sound
  unfold WindowFields.valid at valid
  simp only [Bool.and_eq_true, decide_eq_true_eq] at valid
  obtain ⟨⟨_, depth⟩, _⟩ := valid
  exact depth

theorem ReadAhead.Lawful.unitMove {s : State} (table : s.table.Sound) (lawful : s.readAhead.Lawful W)
    {ra' : ReadAhead} (unit : UnitMove s ra') : ra'.Lawful W := by
  cases unit with
  | retired k => exact lawful.retire k
  | @trimmed k st gone kept next last active owned =>
    have law := lawful.streams k st active
    have once := owned ▸ law.once
    have short := law.short
    rw [owned, List.length_append] at short
    refine lawful.give active (owned ▸ List.subset_append_left gone kept) (fun st' h => ?_) (fun i mem out => ?_)
      fun st' i h mem => ?_
    · cases h
      exact ⟨law.pos, law.depth, by dsimp only; omega, (List.nodup_append.1 once).2.1⟩
    · rw [owned] at mem
      exact ⟨_, rfl, (List.mem_append.1 mem).resolve_left out⟩
    · cases h
      exact ⟨owned ▸ List.mem_append_right gone mem,
        fun taken => (List.nodup_append.1 once).2.2 i taken i mem rfl⟩
  | opened k st free owned port pos depth window =>
    have bound := Window.depth_of_sound (table.1 st.window)
    refine lawful.open free ⟨pos, depth ▸ bound, ?_, ?_⟩ owned
    · rw [owned]
      exact Nat.zero_le _
    · rw [owned]
      exact List.nodup_nil
  | created env k i queued active short free => exact lawful.createLine env active short free

end Unit

/-! ## Windows of streams -/

section Windows

variable {ra : ReadAhead} {t : WindowTable}

/-- Streams retire or change within their windows. -/
theorem ReadAhead.InWindows.of_streams (used : ra.InWindows t) {ra' : ReadAhead}
    (h : ∀ (k : StreamId) (st' : Stream), ra'.streams[k] = some st' →
      ∃ st, ra.streams[k] = some st ∧ st.window = st'.window) : ra'.InWindows t := by
  intro k st' stream'
  obtain ⟨st, stream, same⟩ := h k st' stream'
  rw [← same]
  exact used k st stream

theorem ReadAhead.InWindows.of_same (used : ra.InWindows t) {ra' : ReadAhead}
    (streams : ra'.streams = ra.streams) : ra'.InWindows t :=
  used.of_streams fun k st' h => ⟨st', by rwa [← streams], rfl⟩

theorem ReadAhead.InWindows.retire (used : ra.InWindows t) (k : StreamId) : (ra.retire k).InWindows t := by
  refine used.of_streams fun j st' h => ?_
  rw [ReadAhead.retire_streams] at h
  split at h
  · cases h
  · exact ⟨st', h, rfl⟩

theorem ReadAhead.InWindows.retireWhere (used : ra.InWindows t) (f : Stream → Bool) :
    (ra.retireWhere f).InWindows t :=
  ReadAhead.retireWhere_keeps (ReadAhead.InWindows t) (fun _ k h => h.retire k) f ra used

theorem ReadAhead.InWindows.mapLines (used : ra.InWindows t) (f : Line → Option Line) :
    (ra.mapLines f).InWindows t :=
  used

theorem ReadAhead.InWindows.lineEnd (used : ra.InWindows t) {i : LineId} {l : Line} {ra' : ReadAhead}
    (ends : LineEnd ra i l ra') : ra'.InWindows t := by
  cases ends with
  | valid _ _ _ _ => exact used
  | unwanted _ => exact used
  | failed =>
    refine ReadAhead.InWindows.of_same (ra := ra.retireOwner l) ?_ rfl
    unfold ReadAhead.retireOwner
    split
    · exact used
    · exact used.retire _

theorem ReadAhead.InWindows.unitMove {s : State} (used : s.readAhead.InWindows s.table) {ra' : ReadAhead}
    (unit : UnitMove s ra') : ra'.InWindows s.table := by
  cases unit with
  | retired k => exact used.retire k
  | @trimmed k st gone kept next last active owned =>
    refine used.of_streams fun j st' h => ?_
    rw [ReadAhead.setStream_streams, ReadAhead.releaseAll_streams] at h
    split at h
    · rename_i same
      cases h
      exact ⟨st, same ▸ active, rfl⟩
    · exact ⟨st', h, rfl⟩
  | opened k st free owned port pos depth window =>
    intro j st' h
    rw [ReadAhead.setStream_streams] at h
    split at h
    · cases h
      exact window
    · exact used j st' h
  | @created env k st i queued active short free =>
    refine used.of_streams fun j st' h => ?_
    rw [ReadAhead.createLine_streams] at h
    split at h
    · rename_i same
      cases h
      exact ⟨st, same ▸ active, rfl⟩
    · exact ⟨st', h, rfl⟩

end Windows

/-! ## Moves -/

section Moves

variable {s u : State}

/-- The owner of a slot is told nothing that changes the window table. -/
theorem Told.table {f v : State} {owner : SlotOwner} (told : Told s f owner v) : v.table = f.table := by
  cases told with
  | ended place status data => simp
  | departs d g queue => exact State.depart_table _ _ _
  | fetchEnds status data _ _ => exact foldl_keeps _ State.table (fun _ _ => by simp) _ _
  | _ => rfl

/-- Most moves leave the window table. -/
theorem Move.keeps_table (move : Move s u) (sound : s.table.Sound) : u.table.Sound := by
  have same (h : u.table = s.table) : u.table.Sound := h ▸ sound
  cases move with
  | quiet same =>
    obtain ⟨_, _, _, _, table, _⟩ := State.fields_of_bare same
    rwa [table]
  | table t kept _ => exact kept sound
  | params new _ _ => rwa [State.replaceParams_eq]
  | powerOn => exact (WindowTable.fresh (c := CatchAll.fallback) (fun _ : Nat => Window.zero_fresh) rfl).1
  | warmReset =>
    rw [State.warmReset, State.logLoss_table]
    exact sound
  | configured _ _ _ _ _ _ _ new => exact new
  | cut p state _ _ => exact same (by rw [State.cut, State.setPort_table])
  | readJoins _ _ _ => exact same (by simp [State.spentBy, State.addRead])
  | doneJoins _ _ _ _ _ _ _ _ _ => exact same (by simp [State.spentBy, State.owedBack_eq])
  | attaches _ _ _ _ _ => exact same (by simp [State.spentBy, State.addRead])
  | writeDropped _ _ _ => exact same (by simp [State.spentBy])
  | writeJoins _ _ _ _ _ _ _ => exact same (by rw [State.takePlace_eq]; simp [State.spentBy])
  | fenceJoins _ _ _ _ => exact same (by simp [State.spentBy])
  | @granted slot g _ choice =>
    cases g with
    | write w =>
      obtain ⟨⟨rest, queue⟩, _⟩ := State.headCandidate_some (State.chooseGrant_write choice)
      rw [State.grantTo_write queue]
      exact sound
    | demand e r => exact sound
    | fetch i => exact sound
  | told _ _ told weighed =>
    obtain ⟨_, rfl⟩ | rfl := weighed
    · exact same told.table
    · exact same told.table
  | completionSent _ _ =>
    refine same ?_
    unfold State.freeEntry
    split <;> simp
  | completionBegun p _ _ => exact same (by simp)
  | linkUp p => exact same (by simp)
  | creditBegun p _ => exact same (by simp)
  | linkIdle p => exact same (by simp)
  | _ => exact sound

theorem ReadAhead.attach_of_some {ra : ReadAhead} {i : LineId} {l : Line} (line : ra.lines[i] = some l)
    (place : Nat) : ra.attach i place = ra.setLine i (some { l with attached := l.attached ++ [place] }) := by
  unfold ReadAhead.attach
  rw [line]

/-- The pool's law and the windows of its streams. -/
structure State.PoolLawful (s : State) : Prop where
  lawful : s.readAhead.Lawful noTarget
  windows : s.readAhead.InWindows s.table

theorem State.Blank.poolLawful (blank : s.Blank) : s.PoolLawful where
  lawful := by
    refine ⟨fun i l line => ?_, fun k st stream => ?_, fun i l k line => ?_, fun k st i stream => ?_⟩
    · rw [blank.lines] at line
      cases line
    · rw [blank.streams] at stream
      cases stream
    · rw [blank.lines] at line
      cases line
    · rw [blank.streams] at stream
      cases stream
  windows k st stream := by
    rw [blank.streams] at stream
    cases stream

theorem State.PoolLawful.of_same (pool : s.PoolLawful) (unit : u.readAhead = s.readAhead)
    (table : u.table = s.table) : u.PoolLawful :=
  ⟨unit ▸ pool.lawful, unit ▸ table ▸ pool.windows⟩

/-- A line that stays not VALID, its state, its list and its count changed. -/
theorem State.PoolLawful.change (pool : s.PoolLawful) {i : LineId} {l l' : Line}
    (line : s.readAhead.lines[i] = some l) (unit : u.readAhead = s.readAhead.setLine i (some l'))
    (table : u.table = s.table) (invalid : l'.isValid = false) (stale : l'.stale = l.stale)
    (own : l'.owner = l.owner) (target : l'.target = l.target) : u.PoolLawful where
  lawful := by
    rw [unit]
    exact pool.lawful.change line ((pool.lawful.lines i l line).of_invalid invalid stale own target) own
  windows := by
    rw [unit, table]
    exact pool.windows

theorem Told.poolLawful {f v : State} {owner : SlotOwner} (told : Told s f owner v) (pool : s.PoolLawful)
    (unit : f.readAhead = s.readAhead) (table : f.table = s.table) : v.PoolLawful := by
  have same : f.PoolLawful := pool.of_same unit table
  cases told with
  | nobody _ => exact same
  | ended place status data => exact same.of_same (by simp) (by simp)
  | waits n t _ _ => exact same.of_same rfl rfl
  | departs d g queue =>
    refine ⟨?_, ?_⟩
    · rcases f.depart_readAhead _ _ with h | h <;> rw [h]
      · exact same.lawful.dropRecords _
      · exact (same.lawful.dropRecords _).retireWhere _
    · rw [State.depart_table]
      rcases f.depart_readAhead _ _ with h | h <;> rw [h]
      · exact same.windows.mapLines _
      · exact (same.windows.mapLines _).retireWhere _
  | headWaits n t queue => exact same.of_same rfl rfl
  | @fetchEnds i l ra status data line ends =>
    have folded : State.table (l.attached.foldl (fun t x => t.finish x status (data t x)) f) = s.table :=
      (foldl_keeps _ State.table (fun _ _ => by simp) _ _).trans table
    exact ⟨pool.lawful.lineEnd line ends, by rw [folded]; exact pool.windows.lineEnd ends⟩
  | fetchWaits n t line => exact pool.change line rfl table rfl rfl rfl rfl

theorem Move.keeps_pool (move : Move s u) (pooled : s.Pooled) : u.PoolLawful := by
  have pool : s.PoolLawful := ⟨pooled.lawful, pooled.windows⟩
  cases move with
  | quiet same =>
    obtain ⟨_, _, _, unit, table, _⟩ := State.fields_of_bare same
    exact pool.of_same unit table
  | table t _ used =>
    refine ⟨pool.lawful, fun k st stream disabled => ?_⟩
    rcases used st.window disabled with before | unused
    · exact pool.windows k st stream before
    · exact unused k st stream rfl
  | params new _ _ =>
    rw [State.replaceParams_eq]
    exact pool.of_same rfl rfl
  | powerOn => exact s.powerOnValues_blank.poolLawful
  | warmReset => exact s.warmReset_blank.poolLawful
  | configured table params mask result read loading _ _ =>
    refine ⟨pool.lawful, fun k st stream => ?_⟩
    change s.readAhead.streams[k] = some st at stream
    rw [(pooled.blank loading).streams] at stream
    cases stream
  | linkUp p => exact pool.of_same (by simp) (by simp)
  | cut p state _ _ =>
    refine ⟨?_, ?_⟩
    · rw [State.cut, State.setPort_readAhead]
      exact pool.lawful.shed _ _
    · rw [State.cut, State.setPort_readAhead, State.setPort_table]
      exact ((pool.windows.mapLines _).retireWhere _).mapLines _
  | readJoins _ _ _ => exact pool.of_same (by simp [State.addRead]) (by simp [State.spentBy, State.addRead])
  | doneJoins _ _ _ _ _ _ _ _ _ =>
    exact pool.of_same (by simp) (by simp [State.spentBy, State.owedBack_eq])
  | attaches fields _ _ line invalid =>
    have unit := ReadAhead.attach_of_some line s.nextPlace
    exact pool.change line unit (by simp [State.spentBy, State.addRead]) invalid rfl rfl rfl
  | writeDropped _ _ _ => exact pool.of_same (by simp) (by simp [State.spentBy])
  | writeJoins r _ _ _ _ _ _ =>
    refine ⟨pool.lawful.struck r.line, ?_⟩
    rw [State.takePlace_eq]
    have table : ∀ p r, (s.spentBy p r).table = s.table := fun p r => by simp [State.spentBy]
    dsimp only
    rw [table]
    exact ((pool.windows.mapLines _).retireWhere _).mapLines _
  | fenceJoins _ _ _ _ => exact pool.of_same (by simp) (by simp [State.spentBy])
  | @granted slot g _ choice =>
    cases g with
    | write w =>
      obtain ⟨⟨rest, queue⟩, _⟩ := State.headCandidate_some (State.chooseGrant_write choice)
      rw [State.grantTo_write queue]
      exact pool.of_same rfl rfl
    | demand e r => exact pool.of_same rfl rfl
    | fetch i =>
      rw [State.grantTo_fetch]
      unfold ReadAhead.issue
      split
      · exact pool.of_same rfl rfl
      · rename_i line
        exact pool.change line rfl rfl rfl rfl rfl rfl
  | told _ _ told weighed =>
    have ends := told.poolLawful pool rfl rfl
    obtain ⟨_, rfl⟩ | rfl := weighed
    · exact ends
    · exact ends.of_same rfl rfl
  | reclaimed _ _ => exact pool.of_same rfl rfl
  | headReady _ _ => exact pool.of_same rfl rfl
  | readReady _ _ => exact pool.of_same rfl rfl
  | lineReady line _ => exact pool.change line rfl rfl rfl rfl rfl rfl
  | pool unit => exact ⟨pool.lawful.unitMove pooled.table unit, pool.windows.unitMove unit⟩
  | completionBegun p _ _ => exact pool.of_same (by simp) (by simp)
  | completionSent _ _ =>
    refine pool.of_same ?_ ?_
    · unfold State.freeEntry
      split <;> simp
    · unfold State.freeEntry
      split <;> simp
  | creditBegun p _ => exact pool.of_same (by simp) (by simp)
  | linkIdle p => exact pool.of_same (by simp) (by simp)

theorem Move.keeps_pooled (move : Move s u) (pooled : s.Pooled) : u.Pooled := by
  have pool := move.keeps_pool pooled
  exact ⟨move.keeps_table pooled.table, move.keeps_blank pooled.blank, pool.lawful, pool.windows⟩

end Moves

end Sys2Proof.Machine
end

section
/-! SUPPORT. What it is for every piece of work to be held in exactly one place (R63, R65, R107), said through the claims that
slots, attached-read lists, record links and completion order lists have on entries (O59). -/

namespace Sys2Proof.Machine

/-! ## Claims on entries -/

/-- What can hold an entry. -/
inductive Claim where
  | slot
  | line
  | link (port : PortId) (tag : Option Byte)
  | list (port : PortId)

/-- The entry a claim may be on. -/
def Claim.Fits : Claim → Entry → Prop
  | .slot, e => e.state = .issued
  | .line, e => e.state = .attached
  | .link p tag, e => e.kind = .ackedWrite ∧ e.state = .queued ∧ e.port = p ∧ tag = some e.tag
  | .list p, e => e.isDone = true ∧ e.port = p

/-- A slot, a line, a record or a port's list claims the entry at a place. -/
def State.Claims (s : State) : Claim → Nat → Prop
  | .slot, x => ∃ (i : SlotId) (line : Addr) (d : Timer), s.memPort.slots[i] = .busy (.demand (some x)) line d
  | .line, x => ∃ i : LineId, x ∈ s.readAhead.attachedTo i
  | .link p tag, x => ∃ r ∈ s.queue, r.link = some x ∧ r.port = p ∧ r.ackTag = tag
  | .list p, x => x ∈ (s.port p).done

/-- The entry at a place is live and `P` holds of it. -/
def State.Has (s : State) (x : Nat) (P : Entry → Prop) : Prop :=
  ∃ e ∈ s.tracker, e.place = x ∧ P e

/-- An entry is where its state says (Table 3-2). -/
def State.Keeps (s : State) (e : Entry) : Prop :=
  match e.state, e.kind with
  | .orderWait, .read _ => True
  | .ready, .read _ => True
  | .backoff _, .read _ => True
  | .issued, .read _ => s.Claims .slot e.place
  | .attached, .read _ => s.Claims .line e.place
  | .queued, .ackedWrite => ∃ p tag, s.Claims (.link p tag) e.place
  | .pending, .fence f => f.horizon ≠ [] ∧ ∀ x ∈ f.horizon, x ∈ s.queuedPlaces
  | .done _ _, _ => s.Claims (.list e.port) e.place
  | _, _ => False

/-! ## Slots, lines and lists by themselves -/

/-- No two slots have one owner, a write owner is the issued head record, and a fetch owner a line on its way (R107). -/
structure State.SlotsLawful (s : State) : Prop where
  once : ∀ (i j : SlotId) (owner : SlotOwner) (l l' : Addr) (d d' : Timer), owner ≠ .demand none →
    s.memPort.slots[i] = .busy owner l d → s.memPort.slots[j] = .busy owner l' d' → i = j
  writes : ∀ (i : SlotId) (place : Nat) (line : Addr) (d : Timer),
    s.memPort.slots[i] = .busy (.write place) line d →
      ∃ r rest, s.queue = r :: rest ∧ r.place = place ∧ r.state = .issued ∧ r.line = line
  fetches : ∀ (i : SlotId) (k : LineId) (line : Addr) (d : Timer),
    s.memPort.slots[i] = .busy (.fetch k) line d →
      ∃ l, s.readAhead.lines[k] = some l ∧ l.state = .fetching ∧ l.target = line

/-- No read is attached twice (R70). -/
structure ReadAhead.AttachedOnce (ra : ReadAhead) : Prop where
  nodup : ∀ i : LineId, (ra.attachedTo i).Nodup
  apart : ∀ (i j : LineId) (x : Nat), x ∈ ra.attachedTo i → x ∈ ra.attachedTo j → i = j

/-- Every claim is on an entry that it fits, and every entry outside `L` is where its state says. The entries in `L` are
in transit: nothing claims them. -/
structure State.WorkHeld (L : Nat → Prop) (s : State) : Prop where
  places : (s.tracker.map Entry.place).Nodup
  claimed : ∀ (k : Claim) (x : Nat), s.Claims k x → s.Has x k.Fits
  loose : ∀ x, L x → ∀ k, ¬ s.Claims k x
  entries : ∀ e ∈ s.tracker, L e.place ∨ s.Keeps e
  slots : s.SlotsLawful
  attached : s.readAhead.AttachedOnce
  lists : ∀ p, (s.port p).done.Nodup
  links : ∀ r ∈ s.queue, ∀ x, r.link = some x → x = r.place

/-- No entry is in transit. -/
abbrev noEntry : Nat → Prop := fun _ => False

/-! ## The law as it is computed -/

section Computed

variable {s : State}

theorem State.has_iff (places : (s.tracker.map Entry.place).Nodup) (x : Nat) (f : Entry → Bool) :
    s.entryIs x f = true ↔ s.Has x fun e => f e = true := by
  unfold State.entryIs
  rw [Option.any_eq_true]
  constructor
  · rintro ⟨e, found, holds⟩
    obtain ⟨mem, place⟩ := State.entryAt_some found
    exact ⟨e, mem, place, holds⟩
  · rintro ⟨e, mem, place, holds⟩
    exact ⟨e, place ▸ State.entryAt_of_mem places mem, holds⟩

/-- The owner of a BUSY slot that has one. -/
def Slot.owner? : Slot → Option SlotOwner
  | .busy (.demand none) _ _ => none
  | .busy owner _ _ => some owner
  | _ => none

theorem Slot.owner?_eq_some (slot : Slot) (owner : SlotOwner) : slot.owner? = some owner ↔
    owner ≠ .demand none ∧ ∃ (line : Addr) (d : Timer), slot = .busy owner line d := by
  unfold Slot.owner?
  split
  · simp only [reduceCtorEq, Slot.busy.injEq, false_iff, not_and, not_exists]
    exact fun present _ _ same => absurd same.symm present
  · rename_i owner' line d present
    constructor
    · rintro ⟨⟩
      exact ⟨fun none => present none, line, d, rfl⟩
    · rintro ⟨_, _, _, ⟨⟩⟩
      rfl
  · rename_i busy
    simp only [reduceCtorEq, false_iff, not_and, not_exists]
    rintro _ line d rfl
    exact busy _ _ _ rfl

theorem State.slotOwners_eq (s : State) :
    s.slotOwners = allSlots.filterMap fun i => (s.memPort.slots[i]).owner? := by
  unfold State.slotOwners
  rw [MemPort.slots_eq, List.filterMap_map]
  refine List.filterMap_congr fun i _ => ?_
  rw [Function.comp_apply]
  rfl

theorem State.mem_slotOwners (s : State) (owner : SlotOwner) : owner ∈ s.slotOwners ↔
    owner ≠ .demand none ∧ ∃ (i : SlotId) (line : Addr) (d : Timer), s.memPort.slots[i] = .busy owner line d := by
  rw [State.slotOwners_eq, List.mem_filterMap]
  simp only [Slot.owner?_eq_some, mem_allSlots, true_and]
  exact ⟨fun ⟨i, present, slot⟩ => ⟨present, i, slot⟩, fun ⟨present, i, slot⟩ => ⟨i, present, slot⟩⟩

/-- A symmetric relation holds along a list of all elements, each once, exactly when it holds between any two. -/
theorem pairwise_iff_forall_ne {α : Type} {R : α → α → Prop} (symm : ∀ a b, R a b → R b a) {xs : List α}
    (nodup : xs.Nodup) (all : ∀ a, a ∈ xs) : xs.Pairwise R ↔ ∀ a b, a ≠ b → R a b := by
  have : Std.Symm R := ⟨symm⟩
  exact ⟨fun pairwise a b ne => pairwise.forall (all a) (all b) ne, fun h => nodup.imp fun ne => h _ _ ne⟩

theorem allSlots_nodup : allSlots.Nodup := by decide

theorem allLines_nodup : allLines.Nodup := by decide

theorem State.slotOwners_nodup (s : State) : s.slotOwners.Nodup ↔
    ∀ (i j : SlotId) (owner : SlotOwner) (l l' : Addr) (d d' : Timer), owner ≠ .demand none →
      s.memPort.slots[i] = .busy owner l d → s.memPort.slots[j] = .busy owner l' d' → i = j := by
  rw [State.slotOwners_eq, List.Nodup, List.pairwise_filterMap,
    pairwise_iff_forall_ne (fun i j h b hb b' hb' => (h b' hb' b hb).symm) allSlots_nodup mem_allSlots]
  simp only [Slot.owner?_eq_some]
  constructor
  · intro h i j owner l l' d d' present hi hj
    by_contra ne
    exact h i j ne owner ⟨present, l, d, hi⟩ owner ⟨present, l', d', hj⟩ rfl
  · rintro h i j ne owner ⟨present, l, d, hi⟩ owner' ⟨_, l', d', hj⟩ rfl
    exact ne (h i j owner l l' d d' present hi hj)

theorem State.mem_attachedReads (s : State) (x : Nat) : x ∈ s.attachedReads ↔ s.Claims .line x := by
  unfold State.attachedReads State.Claims
  simp [mem_allLines]

theorem State.attachedReads_nodup (s : State) : s.attachedReads.Nodup ↔ s.readAhead.AttachedOnce := by
  unfold State.attachedReads
  rw [List.nodup_flatten, List.pairwise_map,
    pairwise_iff_forall_ne (fun _ _ h => h.symm) allLines_nodup mem_allLines]
  simp only [List.mem_map, mem_allLines, true_and, forall_exists_index, forall_apply_eq_imp_iff]
  constructor
  · rintro ⟨nodup, apart⟩
    refine ⟨nodup, fun i j x hi hj => ?_⟩
    by_contra ne
    exact apart i j ne hi hj
  · rintro ⟨nodup, apart⟩
    exact ⟨nodup, fun i j ne x hi hj => ne (apart i j x hi hj)⟩

/-- Each slot's owner is in its issued state, as slots, claims and lines say it. -/
theorem State.slotSound_iff (places : (s.tracker.map Entry.place).Nodup) (slot : Slot) :
    s.slotSound slot = true ↔
      (∀ x line d, slot = .busy (.demand (some x)) line d → s.Has x (Claim.Fits .slot)) ∧
      (∀ place line d, slot = .busy (.write place) line d →
        ∃ r rest, s.queue = r :: rest ∧ r.place = place ∧ r.state = .issued ∧ r.line = line) ∧
      ∀ k line d, slot = .busy (.fetch k) line d →
        ∃ l, s.readAhead.lines[k] = some l ∧ l.state = .fetching ∧ l.target = line := by
  unfold State.slotSound
  split
  · rename_i place line d
    simp only [reduceCtorEq, false_implies, implies_true, true_and, and_true,
      false_and, Slot.busy.injEq, SlotOwner.write.injEq]
    constructor
    · rintro head _ _ _ ⟨rfl, rfl, rfl⟩
      cases queue : s.queue with
      | nil =>
        rw [queue] at head
        cases head
      | cons r rest =>
        rw [queue] at head
        simp only [List.head?_cons, Option.any_some, Bool.and_eq_true, decide_eq_true_eq] at head
        obtain ⟨⟨place, state⟩, line⟩ := head
        exact ⟨r, rest, rfl, place, state, line⟩
    · intro h
      obtain ⟨r, rest, queue, place, state, line⟩ := h _ _ _ ⟨rfl, rfl, rfl⟩
      simp [queue, place, state, line]
  · rename_i place line d
    simp only [reduceCtorEq, false_implies, implies_true, and_true, false_and,
      Slot.busy.injEq, SlotOwner.demand.injEq, Option.some.injEq, State.has_iff places, decide_eq_true_eq]
    exact ⟨fun h _ _ _ ⟨same, _⟩ => same ▸ h, fun h => h _ _ _ ⟨rfl, rfl, rfl⟩⟩
  · rename_i k line d
    simp only [reduceCtorEq, false_implies, implies_true, true_and, false_and,
      Slot.busy.injEq, SlotOwner.fetch.injEq,
      ReadAhead.lineIs_true, Bool.and_eq_true, decide_eq_true_eq]
    exact ⟨fun ⟨l, h⟩ _ _ _ ⟨same, target, _⟩ => ⟨l, same ▸ h.1, h.2.1, target ▸ h.2.2⟩,
      fun h => let ⟨l, line, state, target⟩ := h _ _ _ ⟨rfl, rfl, rfl⟩; ⟨l, line, state, target⟩⟩
  · rename_i write demand fetch
    simp only [true_iff]
    exact ⟨fun x line d h => absurd h (demand x line d), fun x line d h => absurd h (write x line d),
      fun k line d h => absurd h (fetch k line d)⟩

theorem State.linkSound_iff (places : (s.tracker.map Entry.place).Nodup) (r : WriteRecord) :
    s.linkSound r = true ↔ ∀ x, r.link = some x →
      x = r.place ∧ s.Has x (Claim.Fits (.link r.port r.ackTag)) := by
  unfold State.linkSound
  cases r.link with
  | none => simp
  | some x =>
    simp only [Bool.and_eq_true, decide_eq_true_eq, State.has_iff places, Option.some.injEq, forall_eq',
      and_assoc]
    rfl

theorem State.entrySound_iff (s : State) (e : Entry) : s.entrySound e = true ↔ s.Keeps e := by
  unfold State.entrySound
  split
  · rename_i state kind
    simp only [State.Keeps, state, kind]
  · rename_i state kind
    simp only [State.Keeps, state, kind]
  · rename_i state kind
    simp only [State.Keeps, state, kind]
  · rename_i state kind
    simp only [State.Keeps, state, kind, List.contains_iff_mem, State.mem_slotOwners]
    exact ⟨fun h => h.2, fun h => ⟨fun none => (nomatch none), h⟩⟩
  · rename_i state kind
    simp only [State.Keeps, state, kind, List.contains_iff_mem, State.mem_attachedReads]
  · rename_i state kind
    simp only [State.Keeps, state, kind, List.any_eq_true, decide_eq_true_eq]
    exact ⟨fun ⟨r, mem, link⟩ => ⟨r.port, r.ackTag, r, mem, link, rfl, rfl⟩,
      fun ⟨_, _, r, mem, link, _⟩ => ⟨r, mem, link⟩⟩
  · rename_i state kind
    simp only [State.Keeps, state, kind, Bool.and_eq_true, Bool.not_eq_true', List.isEmpty_eq_false_iff,
      List.all_eq_true, List.any_eq_true, decide_eq_true_eq, State.queuedPlaces, List.mem_map]
  · rename_i state
    simp only [State.Keeps, state, List.contains_iff_mem]
    rfl
  · unfold State.Keeps
    split <;> simp_all

theorem State.listSound_iff (places : (s.tracker.map Entry.place).Nodup) (p : PortId) :
    s.listSound p = true ↔ (s.port p).done.Nodup ∧
      ∀ x, s.Claims (.list p) x → s.Has x (Claim.Fits (.list p)) := by
  unfold State.listSound
  simp only [Bool.and_eq_true, decide_eq_true_eq, List.all_eq_true, State.has_iff places]
  rfl

/-- Only the head record leaves QUEUED (R27, R39). -/
def State.TailQueued (s : State) : Prop :=
  ∀ r ∈ s.queue.tail, r.state = .queued

/-- Every piece of work is held in one place, with what that rests on. -/
structure State.WorkLawful (s : State) : Prop where
  ordered : s.Ordered
  tail : s.TailQueued
  pooled : s.Pooled
  idle : s.Idle
  held : s.WorkHeld noEntry

theorem State.Ordered.places (ordered : s.Ordered) : (s.tracker.map Entry.place).Nodup :=
  ordered.tracker.imp Nat.ne_of_lt

theorem State.slots_all (s : State) (f : Slot → Bool) :
    s.memPort.slots.toArray.toList.all f = true ↔ ∀ i : SlotId, f s.memPort.slots[i] = true := by
  rw [MemPort.slots_eq, List.all_map, List.all_eq_true]
  simp only [mem_allSlots, forall_const, Function.comp_apply]

theorem State.tailQueued_iff (s : State) : s.onlyHeadMoves = true ↔ s.TailQueued := by
  simp only [State.onlyHeadMoves, List.all_eq_true, decide_eq_true_eq]
  rfl

/-- The claims one by one. -/
theorem State.claims_iff (P : Claim → Nat → Prop) : (∀ (k : Claim) (x : Nat), s.Claims k x → P k x) ↔
    (∀ (i : SlotId) (x : Nat) (line : Addr) (d : Timer),
      s.memPort.slots[i] = .busy (.demand (some x)) line d → P .slot x) ∧
    (∀ x, s.Claims .line x → P .line x) ∧
    (∀ r ∈ s.queue, ∀ x, r.link = some x → P (.link r.port r.ackTag) x) ∧
    ∀ p x, s.Claims (.list p) x → P (.list p) x := by
  constructor
  · exact fun h => ⟨fun i x line d slot => h .slot x ⟨i, line, d, slot⟩, h .line,
      fun r mem x link => h (.link r.port r.ackTag) x ⟨r, mem, link, rfl, rfl⟩, fun p => h (.list p)⟩
  · rintro ⟨slots, lines, links, lists⟩ k x claim
    cases k with
    | slot =>
      obtain ⟨i, line, d, slot⟩ := claim
      exact slots i x line d slot
    | line => exact lines x claim
    | link p tag =>
      obtain ⟨r, mem, link, rfl, rfl⟩ := claim
      exact links r mem x link
    | list p => exact lists p x claim

theorem State.workHeld_iff (places : (s.tracker.map Entry.place).Nodup) : s.WorkHeld noEntry ↔
    (∀ i : SlotId, s.slotSound s.memPort.slots[i] = true) ∧ s.slotOwners.Nodup ∧ s.attachedReads.Nodup ∧
      (∀ x ∈ s.attachedReads, s.entryIs x (fun e => decide (e.state = .attached)) = true) ∧
      (∀ r ∈ s.queue, s.linkSound r = true) ∧ (∀ e ∈ s.tracker, s.entrySound e = true) ∧
      ∀ p, s.listSound p = true := by
  simp only [State.slotOwners_nodup, State.attachedReads_nodup, State.slotSound_iff places,
    State.has_iff places, State.linkSound_iff places, State.entrySound_iff, State.listSound_iff places,
    State.mem_attachedReads, decide_eq_true_eq]
  constructor
  · intro held
    obtain ⟨slots, lines, links, lists⟩ := (State.claims_iff fun k x => s.Has x k.Fits).1 held.claimed
    exact ⟨fun i => ⟨slots i, held.slots.writes i, held.slots.fetches i⟩, held.slots.once, held.attached, lines,
      fun r mem x link => ⟨held.links r mem x link, links r mem x link⟩,
      fun e mem => (held.entries e mem).resolve_left id, fun p => ⟨held.lists p, lists p⟩⟩
  · rintro ⟨slots, once, attached, lines, links, entries, lists⟩
    exact ⟨places, (State.claims_iff fun k x => s.Has x k.Fits).2 ⟨fun i => (slots i).1, lines,
        fun r mem x link => (links r mem x link).2, fun p => (lists p).2⟩,
      fun _ h => h.elim, fun e mem => .inr (entries e mem),
      ⟨once, fun i => (slots i).2.1, fun i => (slots i).2.2⟩, attached, fun p => (lists p).1,
      fun r mem x link => (links r mem x link).1⟩

theorem State.workSound_iff (s : State) : s.workSound = true ↔ s.WorkLawful := by
  unfold State.workSound
  simp only [Bool.and_eq_true, PortId.all_iff, State.slots_all]
  simp only [State.orderSound_iff, State.poolSound_iff, decide_eq_true_eq, State.tailQueued_iff,
    State.idlePort_iff, List.all_eq_true]
  constructor
  · rintro ⟨⟨⟨⟨⟨⟨⟨⟨⟨ordered, tail⟩, pooled⟩, slots⟩, owners⟩, once⟩, attached⟩, links⟩, entries⟩, ports⟩
    exact ⟨ordered, tail, pooled, fun p => (ports p).1, (State.workHeld_iff ordered.places).2
      ⟨slots, owners, once, attached, links, entries, fun p => (ports p).2⟩⟩
  · rintro ⟨ordered, tail, pooled, idle, held⟩
    obtain ⟨slots, owners, once, attached, links, entries, lists⟩ := (State.workHeld_iff ordered.places).1 held
    exact ⟨⟨⟨⟨⟨⟨⟨⟨⟨ordered, tail⟩, pooled⟩, slots⟩, owners⟩, once⟩, attached⟩, links⟩, entries⟩,
      fun p => ⟨idle p, lists p⟩⟩

end Computed

end Sys2Proof.Machine
end

section
/-! SUPPORT. Reasoning rules for held work: entries that come into transit and out of it, and what each operation does to
the claims on them (O59). -/

namespace Sys2Proof.Machine

section Rules

variable {s u : State} {L : Nat → Prop}

/-! ## Claims -/

theorem State.Claims.congr (slots : u.memPort.slots = s.memPort.slots)
    (attached : ∀ i, u.readAhead.attachedTo i = s.readAhead.attachedTo i) (queue : u.queue = s.queue)
    (done : ∀ p, (u.port p).done = (s.port p).done) (k : Claim) (x : Nat) : u.Claims k x ↔ s.Claims k x := by
  cases k with
  | slot =>
    unfold State.Claims
    rw [slots]
  | line => exact exists_congr fun i => by rw [attached]
  | link p tag =>
    unfold State.Claims
    rw [queue]
  | list p =>
    simp only [State.Claims]
    rw [done]

/-- An entry stays where its state says while what claims it does so, and the records it waits for stay. -/
theorem State.Keeps.mono {e : Entry} (keeps : s.Keeps e) (claims : ∀ k, s.Claims k e.place → u.Claims k e.place)
    (queue : ∀ x ∈ s.queuedPlaces, x ∈ u.queuedPlaces) : u.Keeps e := by
  unfold State.Keeps at keeps ⊢
  split at keeps
  · trivial
  · trivial
  · trivial
  · exact claims _ keeps
  · exact claims _ keeps
  · obtain ⟨p, tag, claim⟩ := keeps
    exact ⟨p, tag, claims _ claim⟩
  · exact ⟨keeps.1, fun x hx => queue x (keeps.2 x hx)⟩
  · exact claims _ keeps
  · exact keeps.elim

/-- The one entry at a place. -/
theorem State.WorkHeld.entry_eq (held : s.WorkHeld L) {e e' : Entry} (mem : e ∈ s.tracker)
    (mem' : e' ∈ s.tracker) (place : e.place = e'.place) : e = e' :=
  List.inj_on_of_nodup_map held.places mem mem' place

/-- What claims an entry fits it. -/
theorem State.WorkHeld.fits (held : s.WorkHeld L) {e : Entry} (mem : e ∈ s.tracker) {k : Claim}
    (claim : s.Claims k e.place) : k.Fits e := by
  obtain ⟨e', mem', place, fits⟩ := held.claimed k e.place claim
  rwa [held.entry_eq mem mem' place.symm]

theorem State.WorkHeld.congr_loose (held : s.WorkHeld L) {L' : Nat → Prop} (h : ∀ x, L x ↔ L' x) :
    s.WorkHeld L' := by
  have : L = L' := funext fun x => propext (h x)
  rwa [← this]

/-- An entry that no claim fits comes into transit. -/
theorem State.WorkHeld.loosen (held : s.WorkHeld L) {e : Entry} (mem : e ∈ s.tracker)
    (free : ∀ k : Claim, ¬ k.Fits e) : s.WorkHeld fun x => L x ∨ x = e.place where
  places := held.places
  claimed := held.claimed
  loose := by
    rintro x (loose | rfl) k claim
    · exact held.loose x loose k claim
    · exact free k (held.fits mem claim)
  entries e' he' := (held.entries e' he').imp .inl id
  slots := held.slots
  attached := held.attached
  lists := held.lists
  links := held.links

/-- An entry in transit that is where its state says comes out of it. -/
theorem State.WorkHeld.settle (held : s.WorkHeld L) {x : Nat} (keeps : ∀ e ∈ s.tracker, e.place = x → s.Keeps e) :
    s.WorkHeld fun y => L y ∧ y ≠ x where
  places := held.places
  claimed := held.claimed
  loose y loose := held.loose y loose.1
  entries e he := by
    by_cases place : e.place = x
    · exact .inr (keeps e he place)
    · exact (held.entries e he).imp (⟨·, place⟩) id
  slots := held.slots
  attached := held.attached
  lists := held.lists
  links := held.links

/-- No entry stays in transit. -/
theorem State.WorkHeld.arrive (held : s.WorkHeld L) (none : ∀ e ∈ s.tracker, ¬ L e.place) : s.WorkHeld noEntry where
  places := held.places
  claimed := held.claimed
  loose _ no := no.elim
  entries e he := .inr ((held.entries e he).resolve_left (none e he))
  slots := held.slots
  attached := held.attached
  lists := held.lists
  links := held.links

/-! ## Slots by themselves -/

theorem State.SlotsLawful.congr (lawful : s.SlotsLawful) (slots : u.memPort.slots = s.memPort.slots)
    (queue : u.queue = s.queue) (lines : ∀ (k : LineId) (l : Line), s.readAhead.lines[k] = some l →
      l.state = .fetching → ∃ l', u.readAhead.lines[k] = some l' ∧ l'.state = .fetching ∧ l'.target = l.target) :
    u.SlotsLawful where
  once := by
    rw [slots]
    exact lawful.once
  writes := by
    rw [slots, queue]
    exact lawful.writes
  fetches i k line d slot := by
    rw [slots] at slot
    obtain ⟨l, before, fetching, target⟩ := lawful.fetches i k line d slot
    obtain ⟨l', after, fetching', target'⟩ := lines k l before fetching
    exact ⟨l', after, fetching', target'.trans target⟩

/-! ## States that differ in nothing that holds work -/

theorem State.WorkHeld.congr (held : s.WorkHeld L) (tracker : u.tracker = s.tracker) (queue : u.queue = s.queue)
    (slots : u.memPort.slots = s.memPort.slots) (pool : u.readAhead = s.readAhead)
    (done : ∀ p, (u.port p).done = (s.port p).done) : u.WorkHeld L := by
  have claims := State.Claims.congr slots (fun i => by rw [pool]) queue done
  refine ⟨by rw [tracker]; exact held.places, fun k x claim => ?_, fun x loose k claim => ?_, fun e he => ?_,
    held.slots.congr slots queue fun k l line fetching => ⟨l, by rwa [pool], fetching, rfl⟩,
    by rw [pool]; exact held.attached, fun p => by rw [done]; exact held.lists p,
    by rw [queue]; exact held.links⟩
  · unfold State.Has
    rw [tracker]
    exact held.claimed k x ((claims k x).1 claim)
  · exact held.loose x loose k ((claims k x).1 claim)
  · rw [tracker] at he
    exact (held.entries e he).imp id fun keeps =>
      keeps.mono (fun k => (claims k _).2) fun x hx => by rwa [State.queuedPlaces, queue]

/-! ## The pool -/

/-- Attached reads stay on their lines, and lines on their way stay so. -/
structure ReadAhead.Carries (ra ra' : ReadAhead) : Prop where
  attached : ∀ i, ra'.attachedTo i = ra.attachedTo i
  fetching : ∀ (k : LineId) (l : Line), ra.lines[k] = some l → l.state = .fetching →
    ∃ l', ra'.lines[k] = some l' ∧ l'.state = .fetching ∧ l'.target = l.target

theorem State.WorkHeld.setPool (held : s.WorkHeld L) {ra : ReadAhead} (carries : s.readAhead.Carries ra) :
    State.WorkHeld L { s with readAhead := ra } := by
  have done (p : PortId) : (State.port { s with readAhead := ra } p).done = (s.port p).done := by cases p <;> rfl
  have claims := State.Claims.congr (s := s) (u := { s with readAhead := ra }) rfl carries.attached rfl done
  refine ⟨held.places, fun k x claim => held.claimed k x ((claims k x).1 claim),
    fun x loose k claim => held.loose x loose k ((claims k x).1 claim), fun e he => ?_,
    held.slots.congr rfl rfl carries.fetching, ⟨fun i => ?_, fun i j x hi hj => ?_⟩, fun p => ?_, held.links⟩
  · exact (held.entries e he).imp id fun keeps => keeps.mono (fun k => (claims k _).2) fun x hx => hx
  · dsimp only
    rw [carries.attached]
    exact held.attached.nodup i
  · dsimp only at hi hj
    rw [carries.attached] at hi hj
    exact held.attached.apart i j x hi hj
  · rw [done]
    exact held.lists p

/-! ## Entries -/

/-- The entries change by a function that leaves their places, and all that are not in transit. -/
theorem State.WorkHeld.map_loose (held : s.WorkHeld L) {f : Entry → Entry} (places : ∀ e, (f e).place = e.place)
    (others : ∀ e ∈ s.tracker, ¬ L e.place → f e = e) : State.WorkHeld L { s with tracker := s.tracker.map f } := by
  have done (p : PortId) : (State.port { s with tracker := s.tracker.map f } p).done = (s.port p).done := by
    cases p <;> rfl
  have claims := State.Claims.congr (s := s) (u := { s with tracker := s.tracker.map f }) rfl (fun _ => rfl) rfl done
  refine ⟨?_, fun k x claim => ?_, fun x loose k claim => held.loose x loose k ((claims k x).1 claim),
    fun e' he' => ?_, held.slots.congr rfl rfl fun k l line fetching => ⟨l, line, fetching, rfl⟩, held.attached,
    fun p => by rw [done]; exact held.lists p, held.links⟩
  · rw [List.map_map, show Entry.place ∘ f = Entry.place from funext places]
    exact held.places
  · have before := (claims k x).1 claim
    obtain ⟨e, mem, place, fits⟩ := held.claimed k x before
    refine ⟨e, ?_, place, fits⟩
    rw [← others e mem fun loose => held.loose x (place ▸ loose) k before]
    exact List.mem_map_of_mem mem
  · obtain ⟨e, mem, rfl⟩ := List.mem_map.1 he'
    rw [places]
    by_cases loose : L e.place
    · exact .inl loose
    · rw [others e mem loose]
      exact .inr (((held.entries e mem).resolve_left loose).mono (fun k => (claims k _).2) fun x hx => hx)

/-- A new entry joins in transit. -/
theorem State.WorkHeld.addEntry (held : s.WorkHeld L) {e : Entry} (fresh : ∀ x ∈ s.tracker, x.place ≠ e.place) :
    (s.addEntry e).WorkHeld fun x => L x ∨ x = e.place := by
  have done (p : PortId) : ((s.addEntry e).port p).done = (s.port p).done := by cases p <;> rfl
  have claims := State.Claims.congr (s := s) (u := s.addEntry e) rfl (fun _ => rfl) rfl done
  refine ⟨?_, fun k x claim => ?_, fun x loose k claim => ?_, fun e' he' => ?_,
    held.slots.congr rfl rfl fun k l line fetching => ⟨l, line, fetching, rfl⟩, held.attached,
    fun p => by rw [done]; exact held.lists p, held.links⟩
  · rw [State.addEntry_tracker, List.map_append, List.map_singleton, List.nodup_append]
    refine ⟨held.places, List.nodup_singleton _, fun x hx y hy same => ?_⟩
    obtain ⟨e', mem, rfl⟩ := List.mem_map.1 hx
    exact fresh e' mem (same.trans (List.mem_singleton.1 hy))
  · obtain ⟨e', mem, rest⟩ := held.claimed k x ((claims k x).1 claim)
    exact ⟨e', List.mem_append_left _ mem, rest⟩
  · have before := (claims k x).1 claim
    rcases loose with loose | rfl
    · exact held.loose x loose k before
    · obtain ⟨e', mem, place, _⟩ := held.claimed k _ before
      exact fresh e' mem place
  · rw [State.addEntry_tracker, List.mem_append, List.mem_singleton] at he'
    rcases he' with old | rfl
    · rcases held.entries e' old with loose | keeps
      · exact .inl (.inl loose)
      · exact .inr (keeps.mono (fun k => (claims k _).2) fun x hx => hx)
    · exact .inl (.inr rfl)

/-- Entries in transit leave the tracker. -/
theorem State.WorkHeld.remove (held : s.WorkHeld L) {tracker : List Entry} (sub : tracker.Sublist s.tracker)
    (gone : ∀ e ∈ s.tracker, e ∈ tracker ∨ L e.place) : State.WorkHeld L { s with tracker := tracker } := by
  have done (p : PortId) : (State.port { s with tracker := tracker } p).done = (s.port p).done := by
    cases p <;> rfl
  have claims := State.Claims.congr (s := s) (u := { s with tracker := tracker }) rfl (fun _ => rfl) rfl done
  refine ⟨held.places.sublist (sub.map _), fun k x claim => ?_,
    fun x loose k claim => held.loose x loose k ((claims k x).1 claim), fun e he => ?_,
    held.slots.congr rfl rfl fun k l line fetching => ⟨l, line, fetching, rfl⟩, held.attached,
    fun p => by rw [done]; exact held.lists p, held.links⟩
  · have before := (claims k x).1 claim
    obtain ⟨e, mem, place, fits⟩ := held.claimed k x before
    exact ⟨e, (gone e mem).resolve_right fun loose => held.loose x (place ▸ loose) k before, place, fits⟩
  · exact (held.entries e (sub.subset he)).imp id fun keeps =>
      keeps.mono (fun k => (claims k _).2) fun x hx => hx

/-- A read waits or may go, whatever claims are made (R52). -/
theorem weighEntry_keeps (queue : List WriteRecord) (orphaned : List Addr) {e : Entry} (keeps : s.Keeps e) :
    s.Keeps (weighEntry queue orphaned e) := by
  unfold weighEntry
  split
  · rename_i r kind _
    split
    · simp only [State.Keeps, kind]
    · exact keeps
  · rename_i r kind _
    split
    · exact keeps
    · simp only [State.Keeps, kind]
  · exact keeps

theorem weighEntry_fits (queue : List WriteRecord) (orphaned : List Addr) {e : Entry} {k : Claim} (fits : k.Fits e) :
    weighEntry queue orphaned e = e := by
  cases k with
  | slot => exact weighEntry_other _ _ e (by simp [show e.state = _ from fits]) (by simp [show e.state = _ from fits])
  | line => exact weighEntry_other _ _ e (by simp [show e.state = _ from fits]) (by simp [show e.state = _ from fits])
  | link p tag =>
    obtain ⟨_, state, _⟩ := fits
    exact weighEntry_other _ _ e (by simp [state]) (by simp [state])
  | list p =>
    obtain ⟨done, _⟩ := fits
    unfold Entry.isDone at done
    split at done
    · rename_i state
      exact weighEntry_other _ _ e (by simp [state]) (by simp [state])
    · cases done

theorem State.WorkHeld.weighReads (held : s.WorkHeld L) : s.weighReads.WorkHeld L := by
  have done (p : PortId) : (s.weighReads.port p).done = (s.port p).done := by cases p <;> rfl
  have claims := State.Claims.congr (s := s) (u := s.weighReads) rfl (fun _ => rfl) rfl done
  refine ⟨by rw [State.weighReads_places]; exact held.places, fun k x claim => ?_,
    fun x loose k claim => held.loose x loose k ((claims k x).1 claim), fun e' he' => ?_,
    held.slots.congr rfl rfl fun k l line fetching => ⟨l, line, fetching, rfl⟩, held.attached,
    fun p => by rw [done]; exact held.lists p, held.links⟩
  · obtain ⟨e, mem, place, fits⟩ := held.claimed k x ((claims k x).1 claim)
    refine ⟨e, ?_, place, fits⟩
    rw [State.weighReads_tracker, ← weighEntry_fits s.queue s.memPort.orphanedWriteLines fits]
    exact List.mem_map_of_mem mem
  · rw [State.weighReads_tracker] at he'
    obtain ⟨e, mem, rfl⟩ := List.mem_map.1 he'
    rw [weighEntry_place]
    exact (held.entries e mem).imp id fun keeps =>
      (weighEntry_keeps _ _ keeps).mono (fun k => (claims k _).2) fun x hx => hx

/-! ## Claims that come and go -/

/-- An entry in transit is claimed, and so comes out of transit. -/
theorem State.WorkHeld.gain (held : s.WorkHeld L) {x : Nat} {k₀ : Claim} (loose : L x)
    (tracker : u.tracker = s.tracker) (queue : ∀ y ∈ s.queuedPlaces, y ∈ u.queuedPlaces)
    (claims : ∀ k y, u.Claims k y ↔ s.Claims k y ∨ (y = x ∧ k = k₀)) (fits : s.Has x k₀.Fits)
    (keeps : ∀ e ∈ s.tracker, e.place = x → u.Keeps e) (slots : u.SlotsLawful)
    (attached : u.readAhead.AttachedOnce) (lists : ∀ p, (u.port p).done.Nodup)
    (links : ∀ r ∈ u.queue, ∀ y, r.link = some y → y = r.place) : u.WorkHeld fun y => L y ∧ y ≠ x where
  places := by rw [tracker]; exact held.places
  claimed k y claim := by
    unfold State.Has
    rw [tracker]
    rcases (claims k y).1 claim with old | ⟨rfl, rfl⟩
    · exact held.claimed k y old
    · exact fits
  loose := by
    rintro y ⟨loose, ne⟩ k claim
    rcases (claims k y).1 claim with old | ⟨same, _⟩
    · exact held.loose y loose k old
    · exact ne same
  entries e he := by
    rw [tracker] at he
    by_cases place : e.place = x
    · exact .inr (keeps e he place)
    · exact (held.entries e he).imp (⟨·, place⟩) fun keeps =>
        keeps.mono (fun k claim => (claims k _).2 (.inl claim)) queue
  slots := slots
  attached := attached
  lists := lists
  links := links

/-- Claims end, and the entries they were on come into transit. -/
theorem State.WorkHeld.lose (held : s.WorkHeld L) {M : Nat → Prop} (tracker : u.tracker = s.tracker)
    (queue : ∀ y ∈ s.queuedPlaces, y ∈ u.queuedPlaces) (claims : ∀ k y, u.Claims k y → s.Claims k y)
    (lost : ∀ k y, s.Claims k y → u.Claims k y ∨ M y) (free : ∀ y, M y → ∀ k, ¬ u.Claims k y)
    (slots : u.SlotsLawful) (attached : u.readAhead.AttachedOnce) (lists : ∀ p, (u.port p).done.Nodup)
    (links : ∀ r ∈ u.queue, ∀ y, r.link = some y → y = r.place) : u.WorkHeld fun y => L y ∨ M y where
  places := by rw [tracker]; exact held.places
  claimed k y claim := by
    unfold State.Has
    rw [tracker]
    exact held.claimed k y (claims k y claim)
  loose := by
    rintro y (loose | moved) k claim
    · exact held.loose y loose k (claims k y claim)
    · exact free y moved k claim
  entries e he := by
    rw [tracker] at he
    by_cases moved : M e.place
    · exact .inl (.inr moved)
    · exact (held.entries e he).imp .inl fun keeps =>
        keeps.mono (fun k claim => (lost k _ claim).resolve_right moved) queue
  slots := slots
  attached := attached
  lists := lists
  links := links

/-- The claims of two kinds are never on one entry. -/
theorem State.WorkHeld.claims_eq (held : s.WorkHeld L) {k k' : Claim} {x : Nat} (claim : s.Claims k x)
    (claim' : s.Claims k' x) : k = k' := by
  obtain ⟨e, mem, rfl, fits⟩ := held.claimed k x claim
  have fits' := held.fits mem claim'
  cases k <;> cases k' <;> simp only [Claim.Fits, Entry.isDone] at fits fits' <;> grind

/-! ## Ends -/

/-- An entry in transit that is DONE joins the end of its port's list (R63). -/
theorem State.WorkHeld.listed (held : s.WorkHeld L) {e : Entry} (mem : e ∈ s.tracker) (loose : L e.place)
    (done : e.isDone = true) :
    (s.setPort e.port { s.port e.port with done := (s.port e.port).done ++ [e.place] }).WorkHeld
      fun y => L y ∧ y ≠ e.place := by
  have lists (p : PortId) : ((s.setPort e.port { s.port e.port with
      done := (s.port e.port).done ++ [e.place] }).port p).done =
      (s.port p).done ++ if p = e.port then [e.place] else [] := by
    rw [State.setPort_port]
    split
    · rename_i same
      rw [same]
    · rw [List.append_nil]
  have claims (k : Claim) (y : Nat) : (s.setPort e.port { s.port e.port with
      done := (s.port e.port).done ++ [e.place] }).Claims k y ↔
        s.Claims k y ∨ (y = e.place ∧ k = .list e.port) := by
    cases k with
    | list p =>
      simp only [State.Claims, lists, List.mem_append, Claim.list.injEq]
      split
      · simp_all
      · simp_all
    | slot => simp [State.Claims]
    | line => simp [State.Claims]
    | link p tag => simp [State.Claims]
  refine held.gain loose (by simp) (by simp [State.queuedPlaces]) claims ⟨e, mem, rfl, done, rfl⟩
    (fun e' mem' place => ?_) (held.slots.congr (by simp) (by simp) fun k l line fetching => ⟨l, by simpa using line,
      fetching, rfl⟩) (by simpa using held.attached) (fun p => ?_) (by simpa using held.links)
  · rw [held.entry_eq mem' mem place]
    have claim := (claims (.list e.port) e.place).2 (.inr ⟨rfl, rfl⟩)
    unfold Entry.isDone at done
    split at done
    · rename_i state
      simp only [State.Keeps, state]
      exact claim
    · cases done
  · rw [lists]
    split
    · refine List.nodup_append.2 ⟨held.lists p, List.nodup_singleton _, fun x hx y hy same => ?_⟩
      rw [List.mem_singleton.1 hy] at same
      exact held.loose e.place loose (.list p) (same ▸ hx)
    · rw [List.append_nil]
      exact held.lists p

/-- An entry in transit ends: it is DONE and at the end of its port's list (R63). -/
theorem State.WorkHeld.finish (held : s.WorkHeld L) {x : Nat} (loose : L x) (status : Status) (data : List Byte) :
    (s.finish x status data).WorkHeld fun y => L y ∧ y ≠ x := by
  cases found : s.entryAt x with
  | none =>
    rw [State.finish_absent status data found]
    exact held.settle fun e he place => absurd place (State.entryAt_none.1 found e he)
  | some e =>
    obtain ⟨mem, rfl⟩ := State.entryAt_some found
    have set := held.map_loose (f := fun e' => if e'.place = e.place then { e' with state := .done status data } else e')
      (fun e' => by split <;> rfl) fun e' _ stays => if_neg fun (same : e'.place = e.place) => stays (same ▸ loose)
    have mem' : { e with state := .done status data } ∈ setEntryState s.tracker e.place (.done status data) :=
      mem_setEntryState.2 (.inr ⟨e, mem, rfl, rfl⟩)
    rw [State.finish_eq status data found]
    exact set.listed (e := { e with state := .done status data }) mem' loose rfl

/-- The entries of a list end in order. -/
theorem State.WorkHeld.finish_all {M : Nat → Prop} (status : Status) (data : State → Nat → List Byte) {xs : List Nat}
    (nodup : xs.Nodup) (apart : ∀ x ∈ xs, ¬ M x) (held : s.WorkHeld fun y => y ∈ xs ∨ M y) :
    State.WorkHeld M (xs.foldl (fun t x => t.finish x status (data t x)) s) := by
  induction xs generalizing s with
  | nil => exact held.congr_loose fun x => by simp
  | cons x xs ih =>
    obtain ⟨out, nodup⟩ := List.nodup_cons.1 nodup
    refine ih nodup (fun y hy => apart y (List.mem_cons_of_mem _ hy)) ?_
    refine (held.finish (.inl List.mem_cons_self) status (data s x)).congr_loose fun y => ?_
    have := apart x List.mem_cons_self
    constructor
    · rintro ⟨loose, ne⟩
      exact loose.imp (fun h => (List.mem_cons.1 h).resolve_left ne) id
    · rintro (later | other)
      · exact ⟨.inl (List.mem_cons_of_mem _ later), fun same => out (same ▸ later)⟩
      · exact ⟨.inr other, fun same => this (same ▸ other)⟩

end Rules

end Sys2Proof.Machine
end

section
/-! SUPPORT. Which turns of the pool carry its attached reads and its lines on their way (O59). -/

namespace Sys2Proof.Machine

/-- The attached reads of a line, if there is one. -/
def attachedOf : Option Line → List Nat
  | none => []
  | some l => l.attached

theorem ReadAhead.attachedTo_eq (ra : ReadAhead) (i : LineId) : ra.attachedTo i = attachedOf ra.lines[i] := rfl

/-- A line keeps its attached reads, and a line on its way stays so. -/
structure Carried (before after : Option Line) : Prop where
  attached : attachedOf after = attachedOf before
  fetching : ∀ l, before = some l → l.state = .fetching →
    ∃ l', after = some l' ∧ l'.state = .fetching ∧ l'.target = l.target

theorem Carried.refl (o : Option Line) : Carried o o :=
  ⟨rfl, fun l line fetching => ⟨l, line, fetching, rfl⟩⟩

theorem Carried.trans {a b c : Option Line} (first : Carried a b) (second : Carried b c) : Carried a c where
  attached := second.attached.trans first.attached
  fetching l line fetching := by
    obtain ⟨m, after, fetching', target⟩ := first.fetching l line fetching
    obtain ⟨n, last, fetching'', target'⟩ := second.fetching m after fetching'
    exact ⟨n, last, fetching'', target'.trans target⟩

/-- A line that changes neither its reads nor, on its way, its state and target. -/
theorem Carried.of_some {l l' : Line} (attached : l'.attached = l.attached)
    (fetching : l.state = .fetching → l'.state = .fetching ∧ l'.target = l.target) : Carried (some l) (some l') where
  attached := attached
  fetching := by
    rintro _ ⟨⟩ on
    exact ⟨l', rfl, fetching on⟩

/-- A line without reads that is not on its way becomes FREE. -/
theorem Carried.of_free {l : Line} (attached : l.attached = []) (still : l.state ≠ .fetching) :
    Carried (some l) none where
  attached := attached.symm
  fetching := by
    rintro _ ⟨⟩ on
    exact absurd on still

theorem Line.not_fetching_of_pending {l : Line} (pending : l.isPending = true) : l.state ≠ .fetching := by
  intro fetching
  unfold Line.isPending at pending
  rw [fetching] at pending
  cases pending

/-- A released line keeps its reads: one that becomes FREE has none (R75). -/
theorem Line.released_carried {l : Line} (bare : l.isValid = true → l.attached = []) :
    Carried (some l) l.released := by
  unfold Line.released
  cases state : l.state with
  | valid poison data =>
    exact .of_free (bare (by unfold Line.isValid; rw [state])) (by rw [state]; exact fun h => (nomatch h))
  | pending deadline =>
    dsimp only
    split
    · rename_i none
      exact .of_free (List.isEmpty_iff.1 none) (by rw [state]; exact fun h => (nomatch h))
    · exact .of_some rfl fun on => by rw [state] at on; cases on
  | fetching => exact .of_some rfl fun _ => ⟨rfl, rfl⟩

section Carries

variable {ra ra' : ReadAhead} {W : Addr → Prop}

theorem ReadAhead.Carries.of_lines (h : ∀ i : LineId, Carried ra.lines[i] ra'.lines[i]) : ra.Carries ra' :=
  ⟨fun i => by rw [ReadAhead.attachedTo_eq, ReadAhead.attachedTo_eq]; exact (h i).attached,
    fun k l line fetching => (h k).fetching l line fetching⟩

theorem ReadAhead.Carries.refl (ra : ReadAhead) : ra.Carries ra :=
  .of_lines fun _ => .refl _

theorem ReadAhead.Carries.trans {ra'' : ReadAhead} (first : ra.Carries ra') (second : ra'.Carries ra'') :
    ra.Carries ra'' where
  attached i := (second.attached i).trans (first.attached i)
  fetching k l line fetching := by
    obtain ⟨m, after, fetching', target⟩ := first.fetching k l line fetching
    obtain ⟨n, last, fetching'', target'⟩ := second.fetching k m after fetching'
    exact ⟨n, last, fetching'', target'.trans target⟩

theorem ReadAhead.Carries.mapLines {f : Line → Option Line}
    (h : ∀ (i : LineId) (l : Line), ra.lines[i] = some l → Carried (some l) (f l)) : ra.Carries (ra.mapLines f) := by
  refine .of_lines fun i => ?_
  rw [ReadAhead.mapLines_lines]
  cases line : ra.lines[i] with
  | none => exact .refl none
  | some l => exact h i l line

theorem ReadAhead.Lawful.carries_releaseAll (lawful : ra.Lawful W) (is : List LineId) (k : StreamId)
    (st : Option Stream) : ra.Carries ((ra.releaseAll is).setStream k st) := by
  refine .of_lines fun i => ?_
  rw [ReadAhead.setStream_lines, ReadAhead.releaseAll_lines]
  split
  · cases line : ra.lines[i] with
    | none => exact .refl none
    | some l => exact Line.released_carried fun valid => ((lawful.lines i l line).valid valid).2
  · exact .refl _

theorem ReadAhead.Lawful.carries_retire (lawful : ra.Lawful W) (k : StreamId) : ra.Carries (ra.retire k) := by
  unfold ReadAhead.retire
  split
  · exact .refl ra
  · exact lawful.carries_releaseAll _ _ _

theorem ReadAhead.Lawful.carries_retireWhere (lawful : ra.Lawful W) (f : Stream → Bool) :
    ra.Carries (ra.retireWhere f) :=
  (ReadAhead.retireWhere_keeps (fun x => x.Lawful W ∧ ra.Carries x)
    (fun _ k h => ⟨h.1.retire k, h.2.trans (h.1.carries_retire k)⟩) f ra ⟨lawful, .refl ra⟩).2

theorem ReadAhead.Lawful.carries_unitMove {s : State} (lawful : s.readAhead.Lawful W) {ra' : ReadAhead}
    (unit : UnitMove s ra') : s.readAhead.Carries ra' := by
  cases unit with
  | retired k => exact lawful.carries_retire k
  | trimmed k gone kept next last _ _ => exact lawful.carries_releaseAll _ _ _
  | opened k st _ _ _ _ _ _ => exact .of_lines fun i => .refl _
  | created env k i _ _ _ free =>
    refine .of_lines fun j => ?_
    rw [ReadAhead.createLine_lines]
    split
    · rename_i same
      rw [same, free]
      exact ⟨rfl, fun _ line => by cases line⟩
    · exact .refl _

/-- An accepted write leaves every attached read on its line (R86). -/
theorem ReadAhead.Lawful.carries_struck (lawful : ra.Lawful noTarget) (written : Addr) :
    ra.Carries (ra.struck written) := by
  have staled : (ra.mapLines (Line.staled written)).Lawful (· = written) := lawful.staled written
  have first : ra.Carries (ra.mapLines (Line.staled written)) := by
    refine .mapLines fun i l _ => ?_
    unfold Line.staled
    refine .of_some ?_ fun on => ?_
    · split <;> rfl
    · split
      · exact ⟨on, rfl⟩
      · exact ⟨on, rfl⟩
  refine (first.trans (staled.carries_retireWhere (ra.ownsTarget written))).trans (.mapLines fun i l _ => ?_)
  unfold Line.cancelStale
  split
  · rename_i cancelled
    obtain ⟨_, pending, _, none⟩ := cancelled
    exact .of_free none (Line.not_fetching_of_pending pending)
  · exact .refl _

/-- Past the reads of the port itself, the discard of a port leaves every attached read on its line (R90). -/
theorem ReadAhead.Lawful.carries_shed (lawful : ra.Lawful noTarget) (p : PortId) (gone : List Nat) :
    (ra.mapLines (Line.withoutReads gone)).Carries (ra.shed p gone) := by
  refine ((lawful.withoutReads gone).carries_retireWhere fun st => decide (st.port = p)).trans
    (.mapLines fun i l _ => ?_)
  unfold Line.cancelUnwanted
  split
  · rename_i cancelled
    obtain ⟨pending, _, none⟩ := cancelled
    exact .of_free none (Line.not_fetching_of_pending pending)
  · exact .refl _

theorem ReadAhead.carries_dropRecords (ra : ReadAhead) (departed : List Nat) :
    ra.Carries (ra.dropRecords departed) :=
  .mapLines fun _ _ _ => .of_some rfl fun on => ⟨on, rfl⟩

/-- One line changes, and keeps its reads and its way. -/
theorem ReadAhead.Carries.change {i : LineId} {l : Line} {o : Option Line} (line : ra.lines[i] = some l)
    (carried : Carried (some l) o) : ra.Carries (ra.setLine i o) := by
  refine .of_lines fun j => ?_
  rw [ReadAhead.setLine_lines]
  split
  · rename_i same
    rw [same, line]
    exact carried
  · exact .refl _

/-- The reads of line `i` leave it, and its way ends; every other line is carried. -/
structure ReadAhead.CarriesBut (i : LineId) (ra ra' : ReadAhead) : Prop where
  emptied : ra'.attachedTo i = []
  attached : ∀ j, j ≠ i → ra'.attachedTo j = ra.attachedTo j
  fetching : ∀ (k : LineId) (l : Line), k ≠ i → ra.lines[k] = some l → l.state = .fetching →
    ∃ l', ra'.lines[k] = some l' ∧ l'.state = .fetching ∧ l'.target = l.target

theorem ReadAhead.Carries.but (carries : ra.Carries ra') (i : LineId) {o : Option Line} (emptied : attachedOf o = []) :
    ra.CarriesBut i (ra'.setLine i o) where
  emptied := by
    rw [ReadAhead.attachedTo_eq, ReadAhead.setLine_lines, if_pos rfl]
    exact emptied
  attached j other := by
    rw [ReadAhead.attachedTo_eq, ReadAhead.setLine_lines, if_neg other, ← ReadAhead.attachedTo_eq]
    exact carries.attached j
  fetching k l other line fetching := by
    rw [ReadAhead.setLine_lines, if_neg other]
    exact carries.fetching k l line fetching

theorem ReadAhead.Lawful.carriesBut_lineEnd (lawful : ra.Lawful W) {i : LineId} {l : Line}
    (ends : LineEnd ra i l ra') : ra.CarriesBut i ra' := by
  cases ends with
  | valid _ _ _ _ => exact (ReadAhead.Carries.refl ra).but i rfl
  | unwanted _ => exact (ReadAhead.Carries.refl ra).but i rfl
  | failed =>
    refine ReadAhead.Carries.but ?_ i rfl
    unfold ReadAhead.retireOwner
    split
    · exact .refl ra
    · exact lawful.carries_retire _

end Carries

end Sys2Proof.Machine
end

section
/-! SUPPORT. Reasoning rules for held work at slots, at the head record and at a discard (O59). -/

namespace Sys2Proof.Machine

section Rules

variable {s u : State} {L : Nat → Prop}

theorem State.setMem_done (s : State) (m : MemPort) (p : PortId) :
    (State.port { s with memPort := m } p).done = (s.port p).done := by
  cases p <;> rfl

/-- The claims of a state with other slots: those of the slots are new. -/
theorem State.claims_setMem (s : State) (m : MemPort) {k : Claim} (h : k ≠ .slot) (x : Nat) :
    State.Claims { s with memPort := m } k x ↔ s.Claims k x := by
  cases k with
  | slot => exact absurd rfl h
  | list p =>
    simp only [State.Claims]
    rw [State.setMem_done]
  | line => rfl
  | link p tag => rfl

/-! ## Slots -/

/-- A BUSY slot becomes FREE or ORPHANED: its owner comes into transit. -/
theorem State.WorkHeld.vacate (held : s.WorkHeld L) {i : SlotId} {owner : SlotOwner} {line : Addr} {d : Timer}
    (busy : s.memPort.slots[i] = .busy owner line d) {slot : Slot} (idle : slot.isBusy = false) {m : MemPort}
    (slots : m.slots = s.memPort.slots.set i slot) :
    State.WorkHeld (fun x => L x ∨ owner = .demand (some x)) { s with memPort := m } := by
  have after (j : SlotId) (owner' : SlotOwner) (line' : Addr) (d' : Timer) (h : m.slots[j] = .busy owner' line' d') :
      j ≠ i ∧ s.memPort.slots[j] = .busy owner' line' d' := by
    rw [slots, set_getElem_fin] at h
    split at h
    · rw [h] at idle
      cases idle
    · rename_i other
      exact ⟨other, h⟩
  refine held.lose rfl (fun _ h => h) (fun k x claim => ?_) (fun k x claim => ?_) (fun x moved k claim => ?_) ?_
    held.attached (fun p => by rw [State.setMem_done]; exact held.lists p) held.links
  · cases k with
    | slot =>
      obtain ⟨j, line', d', h⟩ := claim
      exact ⟨j, line', d', (after j _ _ _ h).2⟩
    | line => exact claim
    | link p tag => exact claim
    | list p => exact (State.claims_setMem s m (k := .list p) (fun h => (nomatch h)) x).1 claim
  · by_cases same : k = .slot
    · subst same
      obtain ⟨j, line', d', h⟩ := claim
      by_cases there : j = i
      · refine .inr ?_
        rw [there, busy] at h
        cases h
        rfl
      · refine .inl ⟨j, line', d', ?_⟩
        dsimp only
        rw [slots, set_getElem_fin, if_neg there]
        exact h
    · exact .inl ((State.claims_setMem s m same x).2 claim)
  · have claimed : s.Claims .slot x := ⟨i, line, d, moved ▸ busy⟩
    by_cases same : k = .slot
    · subst same
      obtain ⟨j, line', d', h⟩ := claim
      obtain ⟨other, before⟩ := after j _ _ _ h
      exact other (held.slots.once j i (.demand (some x)) _ _ _ _ (fun h => (nomatch h)) before (moved ▸ busy))
    · exact same (held.claims_eq ((State.claims_setMem s m same x).1 claim) claimed)
  · refine ⟨fun j j' owner' l l' e e' present h h' => ?_, fun j place line' d' h => ?_, fun j k line' d' h => ?_⟩
    · exact held.slots.once j j' owner' l l' e e' present (after j _ _ _ h).2 (after j' _ _ _ h').2
    · exact held.slots.writes j place line' d' (after j _ _ _ h).2
    · exact held.slots.fetches j k line' d' (after j _ _ _ h).2

/-- What a FREE slot becomes, it alone becomes. -/
theorem State.SlotsLawful.fill (lawful : s.SlotsLawful) {i : SlotId} {owner : SlotOwner} {line : Addr} {d : Timer}
    {m : MemPort} (slots : m.slots = s.memPort.slots.set i (.busy owner line d))
    (alone : ∀ (j : SlotId) (l : Addr) (e : Timer), s.memPort.slots[j] ≠ .busy owner l e)
    (write : ∀ place, owner = .write place →
      ∃ r rest, s.queue = r :: rest ∧ r.place = place ∧ r.state = .issued ∧ r.line = line)
    (fetch : ∀ k, owner = .fetch k →
      ∃ l, s.readAhead.lines[k] = some l ∧ l.state = .fetching ∧ l.target = line) :
    State.SlotsLawful { s with memPort := m } := by
  have after (j : SlotId) (owner' : SlotOwner) (line' : Addr) (d' : Timer) (h : m.slots[j] = .busy owner' line' d') :
      (j = i ∧ owner' = owner ∧ line' = line) ∨ (j ≠ i ∧ s.memPort.slots[j] = .busy owner' line' d') := by
    rw [slots, set_getElem_fin] at h
    split at h
    · rename_i same
      cases h
      exact .inl ⟨same, rfl, rfl⟩
    · rename_i other
      exact .inr ⟨other, h⟩
  refine ⟨fun j j' owner' l l' e e' present h h' => ?_, fun j place line' d' h => ?_, fun j k line' d' h => ?_⟩
  · rcases after j _ _ _ h with ⟨here, own, _⟩ | ⟨_, before⟩
    · rcases after j' _ _ _ h' with ⟨here', _⟩ | ⟨_, before'⟩
      · rw [here, here']
      · exact absurd (own ▸ before') (alone j' l' e')
    · rcases after j' _ _ _ h' with ⟨_, own, _⟩ | ⟨_, before'⟩
      · exact absurd (own ▸ before) (alone j l e)
      · exact lawful.once j j' owner' l l' e e' present before before'
  · rcases after j _ _ _ h with ⟨_, own, same⟩ | ⟨_, before⟩
    · exact same ▸ write place own.symm
    · exact lawful.writes j place line' d' before
  · rcases after j _ _ _ h with ⟨_, own, same⟩ | ⟨_, before⟩
    · exact same ▸ fetch k own.symm
    · exact lawful.fetches j k line' d' before

/-- A FREE slot goes to the issued head record, or to a line on its way. -/
theorem State.WorkHeld.fill (held : s.WorkHeld L) {i : SlotId} {owner : SlotOwner} {line : Addr} {d : Timer}
    (free : s.memPort.slots[i] = .free) {m : MemPort} (slots : m.slots = s.memPort.slots.set i (.busy owner line d))
    (notRead : ∀ x, owner ≠ .demand x) (lawful : State.SlotsLawful { s with memPort := m }) :
    State.WorkHeld L { s with memPort := m } := by
  have claims (k : Claim) (x : Nat) : State.Claims { s with memPort := m } k x ↔ s.Claims k x := by
    by_cases same : k = .slot
    · subst same
      refine exists_congr fun j => exists_congr fun line' => exists_congr fun d' => ?_
      dsimp only
      rw [slots, set_getElem_fin]
      split
      · rename_i here
        rw [here, free]
        refine iff_of_false (fun h => ?_) fun h => (nomatch h)
        cases h
        exact notRead _ rfl
      · rfl
    · exact State.claims_setMem s m same x
  refine ⟨held.places, fun k x claim => held.claimed k x ((claims k x).1 claim),
    fun x loose k claim => held.loose x loose k ((claims k x).1 claim), fun e he => ?_, lawful, held.attached,
    fun p => by rw [State.setMem_done]; exact held.lists p, held.links⟩
  exact (held.entries e he).imp id fun keeps => keeps.mono (fun k => (claims k _).2) fun x hx => hx

/-- A FREE slot goes to an issued read in transit. -/
theorem State.WorkHeld.fill_read (held : s.WorkHeld L) {i : SlotId} {e : Entry} {r : ReadFields} {line : Addr}
    {d : Timer} (free : s.memPort.slots[i] = .free) {m : MemPort}
    (slots : m.slots = s.memPort.slots.set i (.busy (.demand (some e.place)) line d)) (mem : e ∈ s.tracker)
    (loose : L e.place) (kind : e.kind = .read r) (state : e.state = .issued) :
    State.WorkHeld (fun y => L y ∧ y ≠ e.place) { s with memPort := m } := by
  have alone (j : SlotId) (l : Addr) (t : Timer) : s.memPort.slots[j] ≠ .busy (.demand (some e.place)) l t :=
    fun busy => held.loose e.place loose .slot ⟨j, l, t, busy⟩
  have claims (k : Claim) (x : Nat) : State.Claims { s with memPort := m } k x ↔
      s.Claims k x ∨ (x = e.place ∧ k = .slot) := by
    by_cases same : k = .slot
    · subst same
      simp only [State.Claims, and_true]
      constructor
      · rintro ⟨j, line', d', h⟩
        rw [slots, set_getElem_fin] at h
        split at h
        · cases h
          exact .inr rfl
        · exact .inl ⟨j, line', d', h⟩
      · rintro (⟨j, line', d', h⟩ | rfl)
        · refine ⟨j, line', d', ?_⟩
          rw [slots, set_getElem_fin, if_neg]
          · exact h
          · rintro rfl
            rw [free] at h
            cases h
        · refine ⟨i, line, d, ?_⟩
          rw [slots, set_getElem_fin, if_pos rfl]
    · rw [State.claims_setMem s m same x]
      simp [same]
  refine held.gain loose rfl (fun _ h => h) claims ⟨e, mem, rfl, state⟩ (fun e' mem' place => ?_)
    (held.slots.fill slots alone (fun _ h => (nomatch h)) fun _ h => (nomatch h)) held.attached
    (fun p => by rw [State.setMem_done]; exact held.lists p) held.links
  rw [held.entry_eq mem' mem place]
  simp only [State.Keeps, state, kind]
  exact (claims .slot e.place).2 (.inr ⟨rfl, rfl⟩)

/-- Slots that are not BUSY change among themselves. -/
theorem State.WorkHeld.slots_idle (held : s.WorkHeld L) {m : MemPort}
    (busy : ∀ (i : SlotId) (owner : SlotOwner) (l : Addr) (d : Timer),
      m.slots[i] = .busy owner l d ↔ s.memPort.slots[i] = .busy owner l d) :
    State.WorkHeld L { s with memPort := m } := by
  have claims (k : Claim) (x : Nat) : State.Claims { s with memPort := m } k x ↔ s.Claims k x := by
    by_cases same : k = .slot
    · subst same
      exact exists_congr fun j => exists_congr fun l => exists_congr fun d => busy j _ l d
    · exact State.claims_setMem s m same x
  refine ⟨held.places, fun k x claim => held.claimed k x ((claims k x).1 claim),
    fun x loose k claim => held.loose x loose k ((claims k x).1 claim), fun e he => ?_,
    ⟨fun i j owner l l' d d' present hi hj => ?_, fun i place l d h => ?_, fun i k l d h => ?_⟩, held.attached,
    fun p => by rw [State.setMem_done]; exact held.lists p, held.links⟩
  · exact (held.entries e he).imp id fun keeps => keeps.mono (fun k => (claims k _).2) fun x hx => hx
  · exact held.slots.once i j owner l l' d d' present ((busy i _ _ _).1 hi) ((busy j _ _ _).1 hj)
  · exact held.slots.writes i place l d ((busy i _ _ _).1 h)
  · exact held.slots.fetches i k l d ((busy i _ _ _).1 h)

/-! ## The head record -/

/-- The head record changes in its state and its count, while no slot holds a write. -/
theorem State.WorkHeld.head (held : s.WorkHeld L) {head head' : WriteRecord} {rest : List WriteRecord}
    (queue : s.queue = head :: rest) (place : head'.place = head.place) (link : head'.link = head.link)
    (port : head'.port = head.port) (tag : head'.ackTag = head.ackTag)
    (none : ∀ (i : SlotId) (place : Nat) (l : Addr) (d : Timer), s.memPort.slots[i] ≠ .busy (.write place) l d) :
    State.WorkHeld L { s with queue := head' :: rest } := by
  have done (p : PortId) : (State.port { s with queue := head' :: rest } p).done = (s.port p).done := by
    cases p <;> rfl
  have claims (k : Claim) (x : Nat) : State.Claims { s with queue := head' :: rest } k x ↔ s.Claims k x := by
    cases k with
    | link p t => simp only [State.Claims, queue, List.exists_mem_cons_iff, link, port, tag]
    | slot => rfl
    | line => rfl
    | list p =>
      simp only [State.Claims]
      rw [done]
  refine ⟨held.places, fun k x claim => held.claimed k x ((claims k x).1 claim),
    fun x loose k claim => held.loose x loose k ((claims k x).1 claim), fun e he => ?_,
    ⟨held.slots.once, fun i place l d h => absurd h (none i place l d), held.slots.fetches⟩, held.attached,
    fun p => by rw [done]; exact held.lists p, fun r mem x hx => ?_⟩
  · refine (held.entries e he).imp id fun keeps => keeps.mono (fun k => (claims k _).2) fun x hx => ?_
    simp only [State.queuedPlaces, queue, List.map_cons, place] at hx ⊢
    exact hx
  · have old := held.links
    rw [queue] at old
    rcases List.mem_cons.1 mem with rfl | mem
    · rw [place]
      exact old head List.mem_cons_self x (link ▸ hx)
    · exact old r (List.mem_cons_of_mem _ mem) x hx

/-- The write owner of a slot is the issued head record. -/
theorem State.SlotsLawful.no_write (lawful : s.SlotsLawful) {head : WriteRecord} {rest : List WriteRecord}
    (queue : s.queue = head :: rest) (state : head.state ≠ .issued) (i : SlotId) (place : Nat) (l : Addr)
    (d : Timer) : s.memPort.slots[i] ≠ .busy (.write place) l d := by
  intro busy
  obtain ⟨r, rest', queue', _, issued, _⟩ := lawful.writes i place l d busy
  rw [queue] at queue'
  cases queue'
  exact state issued

/-! ## Lists -/

/-- The oldest entry leaves its port's list and comes into transit (R65). -/
theorem State.WorkHeld.unlist (held : s.WorkHeld L) {p : PortId} {oldest : Nat} {rest : List Nat} {x : Port}
    (list : (s.port p).done = oldest :: rest) (done : x.done = rest) :
    (s.setPort p x).WorkHeld fun y => L y ∨ y = oldest := by
  have lists (q : PortId) : ((s.setPort p x).port q).done = if q = p then rest else (s.port q).done := by
    rw [State.setPort_port]
    split
    · exact done
    · rfl
  have nodup := held.lists p
  rw [list, List.nodup_cons] at nodup
  have claims (k : Claim) (y : Nat) : (s.setPort p x).Claims k y ↔
      s.Claims k y ∧ ¬ (y = oldest ∧ k = .list p) := by
    cases k with
    | list q =>
      simp only [State.Claims, lists, Claim.list.injEq]
      split
      · rename_i same
        subst same
        rw [list]
        constructor
        · exact fun h => ⟨List.mem_cons_of_mem _ h, fun ⟨same, _⟩ => nodup.1 (same ▸ h)⟩
        · exact fun ⟨h, ne⟩ => (List.mem_cons.1 h).resolve_left fun same => ne ⟨same, rfl⟩
      · rename_i other
        simp [other]
    | slot => simp [State.Claims]
    | line => simp [State.Claims]
    | link q tag => simp [State.Claims]
  refine held.lose (M := (· = oldest)) (by simp) (by simp [State.queuedPlaces]) (fun k y claim => ((claims k y).1 claim).1)
    (fun k y claim => ?_) (fun y same k claim => ?_) (held.slots.congr (by simp) (by simp) fun k l line fetching =>
      ⟨l, by simpa using line, fetching, rfl⟩) (by simpa using held.attached) (fun q => ?_)
    (by simpa using held.links)
  · by_cases lost : y = oldest ∧ k = .list p
    · exact .inr lost.1
    · exact .inl ((claims k y).2 ⟨claim, lost⟩)
  · obtain ⟨before, ne⟩ := (claims k y).1 claim
    have listed : s.Claims (.list p) y := by
      simp only [State.Claims, list, same]
      exact List.mem_cons_self
    exact ne ⟨same, held.claims_eq before listed⟩
  · rw [lists]
    split
    · exact nodup.2
    · exact held.lists q

end Rules

end Sys2Proof.Machine
end

section
/-! SUPPORT. Held work through the discard of a port and through the departures of an event (O59). -/

namespace Sys2Proof.Machine

section Cut

variable {s : State}

/-- What a discard takes away at once: the claims on the entries of the port (R148). -/
def State.released (s : State) (p : PortId) (x : Port) : State :=
  { s with
    queue := s.queue.map (WriteRecord.unlinked p)
    readAhead := s.readAhead.mapLines (Line.withoutReads (s.placesOf p))
    memPort :=
      { s.memPort with slots := mapVec (Slot.withoutEntries (s.placesOf p)) s.memPort.slots } }.setPort p x

theorem State.mem_placesOf (s : State) (p : PortId) (x : Nat) :
    x ∈ s.placesOf p ↔ ∃ e ∈ s.tracker, e.place = x ∧ e.port = p := by
  unfold State.placesOf
  simp only [List.mem_map, List.mem_filter, decide_eq_true_eq]
  exact ⟨fun ⟨e, ⟨mem, port⟩, place⟩ => ⟨e, mem, place, port⟩, fun ⟨e, mem, place, port⟩ => ⟨e, ⟨mem, port⟩, place⟩⟩

theorem Slot.withoutEntries_busy (gone : List Nat) (slot : Slot) (owner : SlotOwner) (line : Addr) (d : Timer)
    (present : owner ≠ .demand none) : slot.withoutEntries gone = .busy owner line d ↔
      slot = .busy owner line d ∧ ∀ x, owner = .demand (some x) → x ∉ gone := by
  unfold Slot.withoutEntries
  split
  · rename_i place line' d'
    by_cases mem : place ∈ gone
    · simp only [List.contains_iff_mem.2 mem, if_true, Slot.busy.injEq]
      constructor
      · rintro ⟨same, _⟩
        exact absurd same.symm present
      · rintro ⟨⟨rfl, _⟩, out⟩
        exact absurd mem (out place rfl)
    · have out : gone.contains place = false := by simpa using mem
      simp only [out, Bool.false_eq_true, if_false, Slot.busy.injEq]
      constructor
      · rintro ⟨rfl, rest⟩
        exact ⟨⟨rfl, rest⟩, fun x same => by cases same; exact mem⟩
      · exact fun h => h.1
  · rename_i other
    refine ⟨fun h => ⟨h, fun x same => ?_⟩, fun h => h.1⟩
    subst same
    exact absurd h (other x line d)

section Released

variable {L : Nat → Prop} {p : PortId} {x : Port}

theorem State.released_done (s : State) (empty : x.done = []) (q : PortId) :
    ((s.released p x).port q).done = if q = p then [] else (s.port q).done := by
  unfold State.released
  rw [State.setPort_port]
  split
  · exact empty
  · cases q <;> rfl

theorem State.released_attached (s : State) (p : PortId) (x : Port) (i : LineId) :
    (s.released p x).readAhead.attachedTo i =
      (s.readAhead.attachedTo i).filter fun y => !(s.placesOf p).contains y := by
  unfold State.released
  rw [State.setPort_readAhead, ReadAhead.attachedTo_eq, ReadAhead.attachedTo_eq, ReadAhead.mapLines_lines]
  cases s.readAhead.lines[i] with
  | none => rfl
  | some l => rfl

theorem State.released_slot (s : State) (p : PortId) (x : Port) (i : SlotId) :
    (s.released p x).memPort.slots[i] = (s.memPort.slots[i]).withoutEntries (s.placesOf p) := by
  unfold State.released
  rw [State.setPort_memPort]
  exact mapVec_getElem_fin _ _ _

theorem State.released_queue (s : State) (p : PortId) (x : Port) :
    (s.released p x).queue = s.queue.map (WriteRecord.unlinked p) := by
  unfold State.released
  rw [State.setPort_queue]

theorem WriteRecord.unlinked_link (p : PortId) (r : WriteRecord) (y : Nat) :
    (r.unlinked p).link = some y ↔ r.link = some y ∧ r.port ≠ p := by
  unfold WriteRecord.unlinked
  split
  · rename_i same
    simp [same]
  · rename_i other
    simp [other]

theorem WriteRecord.unlinked_fields (p : PortId) (r : WriteRecord) :
    (r.unlinked p).place = r.place ∧ (r.unlinked p).port = r.port ∧ (r.unlinked p).ackTag = r.ackTag ∧
      (r.unlinked p).state = r.state ∧ (r.unlinked p).line = r.line := by
  unfold WriteRecord.unlinked
  split <;> exact ⟨rfl, rfl, rfl, rfl, rfl⟩

/-- The claims that a discard leaves are those on entries of the other port. -/
theorem State.WorkHeld.released_claims (held : s.WorkHeld L) (empty : x.done = []) (k : Claim) (y : Nat) :
    (s.released p x).Claims k y ↔ s.Claims k y ∧ y ∉ s.placesOf p := by
  have port {q : PortId} (claim : s.Claims k y) (own : ∀ e, k.Fits e → e.port = q) :
      y ∉ s.placesOf p ↔ q ≠ p := by
    obtain ⟨e, mem, place, fits⟩ := held.claimed k y claim
    rw [State.mem_placesOf]
    constructor
    · rintro out rfl
      exact out ⟨e, mem, place, own e fits⟩
    · rintro ne ⟨e', mem', place', port'⟩
      rw [held.entry_eq mem' mem (place'.trans place.symm), own e fits] at port'
      exact ne port'
  cases k with
  | slot =>
    simp only [State.Claims, State.released_slot]
    constructor
    · rintro ⟨i, line, d, h⟩
      obtain ⟨busy, out⟩ := (Slot.withoutEntries_busy _ _ (.demand (some y)) _ _ (fun h => (nomatch h))).1 h
      exact ⟨⟨i, line, d, busy⟩, out y rfl⟩
    · rintro ⟨⟨i, line, d, busy⟩, out⟩
      refine ⟨i, line, d, (Slot.withoutEntries_busy _ _ (.demand (some y)) _ _ (fun h => (nomatch h))).2
        ⟨busy, fun z same => ?_⟩⟩
      cases same
      exact out
  | line =>
    simp only [State.Claims, State.released_attached, List.mem_filter, Bool.not_eq_true',
      List.contains_eq_mem, decide_eq_false_iff_not, exists_and_right]
  | link q tag =>
    constructor
    · rintro ⟨r', mem', link, own, name⟩
      rw [State.released_queue] at mem'
      obtain ⟨r, mem, rfl⟩ := List.mem_map.1 mem'
      obtain ⟨_, samePort, sameTag, _⟩ := r.unlinked_fields p
      rw [WriteRecord.unlinked_link] at link
      rw [samePort] at own
      have claim : s.Claims (.link q tag) y := ⟨r, mem, link.1, own, sameTag ▸ name⟩
      exact ⟨claim, (port claim fun e fits => fits.2.2.1).2 (own ▸ link.2)⟩
    · rintro ⟨claim, out⟩
      have ne := (port claim fun e fits => fits.2.2.1).1 out
      obtain ⟨r, mem, link, own, name⟩ := claim
      obtain ⟨_, samePort, sameTag, _⟩ := r.unlinked_fields p
      refine ⟨r.unlinked p, ?_, (r.unlinked_link p y).2 ⟨link, own ▸ ne⟩, samePort.trans own, sameTag.trans name⟩
      rw [State.released_queue]
      exact List.mem_map_of_mem mem
  | list q =>
    simp only [State.Claims, State.released_done s empty]
    constructor
    · intro mem
      split at mem
      · cases mem
      · rename_i ne
        exact ⟨mem, (port mem fun e fits => fits.2).2 ne⟩
    · rintro ⟨mem, out⟩
      rw [if_neg ((port mem fun e fits => fits.2).1 out)]
      exact mem

theorem State.SlotsLawful.released (lawful : s.SlotsLawful) : (s.released p x).SlotsLawful where
  once i j owner l l' d d' present hi hj := by
    rw [State.released_slot] at hi hj
    exact lawful.once i j owner l l' d d' present ((Slot.withoutEntries_busy _ _ _ _ _ present).1 hi).1
      ((Slot.withoutEntries_busy _ _ _ _ _ present).1 hj).1
  writes i place l d h := by
    rw [State.released_slot] at h
    obtain ⟨r, rest, queue, same, state, line⟩ := lawful.writes i place l d
      ((Slot.withoutEntries_busy _ _ (.write place) _ _ (fun h => (nomatch h))).1 h).1
    obtain ⟨placeU, _, _, stateU, lineU⟩ := r.unlinked_fields p
    refine ⟨r.unlinked p, rest.map (WriteRecord.unlinked p), ?_, placeU.trans same, stateU.trans state,
      lineU.trans line⟩
    rw [State.released_queue, queue]
    rfl
  fetches i k l d h := by
    rw [State.released_slot] at h
    obtain ⟨line, before, fetching, target⟩ := lawful.fetches i k l d
      ((Slot.withoutEntries_busy _ _ (.fetch k) _ _ (fun h => (nomatch h))).1 h).1
    refine ⟨{ line with attached := line.attached.filter fun e => !(s.placesOf p).contains e }, ?_, fetching, target⟩
    unfold State.released
    rw [State.setPort_readAhead, ReadAhead.mapLines_lines, before]
    rfl

theorem State.WorkHeld.released (held : s.WorkHeld L) (empty : x.done = []) :
    (s.released p x).WorkHeld fun y => L y ∨ y ∈ s.placesOf p := by
  have claims := held.released_claims (p := p) empty
  refine held.lose ?_ (fun y mem => ?_) (fun k y claim => ((claims k y).1 claim).1) (fun k y claim => ?_)
    (fun y gone k claim => ((claims k y).1 claim).2 gone) held.slots.released
    ⟨fun i => ?_, fun i j y hi hj => ?_⟩ (fun q => ?_) fun r' mem y link => ?_
  · unfold State.released
    rw [State.setPort_tracker]
  · rw [State.queuedPlaces, State.released_queue, List.map_map]
    rw [show WriteRecord.place ∘ WriteRecord.unlinked p = WriteRecord.place from
      funext fun r => (r.unlinked_fields p).1]
    exact mem
  · by_cases gone : y ∈ s.placesOf p
    · exact .inr gone
    · exact .inl ((claims k y).2 ⟨claim, gone⟩)
  · rw [State.released_attached]
    exact (held.attached.nodup i).filter _
  · rw [State.released_attached] at hi hj
    exact held.attached.apart i j y (List.mem_of_mem_filter hi) (List.mem_of_mem_filter hj)
  · rw [State.released_done s empty]
    split
    · exact List.nodup_nil
    · exact held.lists q
  · rw [State.released_queue] at mem
    obtain ⟨r, queued, rfl⟩ := List.mem_map.1 mem
    rw [(r.unlinked_fields p).1]
    exact held.links r queued y ((r.unlinked_link p y).1 link).1

end Released

theorem State.cut_eq (s : State) (p : PortId) (state : PortState) : s.cut p state =
    { s.released p { (s.port p).discarded (s.startUp.params.writeAllocation p)
          (s.startUp.params.requestAllocation p) (queuedRecords s.queue p) with state := state } with
      readAhead := s.readAhead.shed p (s.placesOf p)
      tracker := s.tracker.filter fun e => !decide (e.port = p) } := by
  cases p <;> rfl

theorem State.WorkHeld.cut (held : s.WorkHeld noEntry) (lawful : s.readAhead.Lawful noTarget) (p : PortId)
    (state : PortState) : (s.cut p state).WorkHeld noEntry := by
  have released := held.released (p := p) (x := { (s.port p).discarded (s.startUp.params.writeAllocation p)
    (s.startUp.params.requestAllocation p) (queuedRecords s.queue p) with state := state }) rfl
  have pool := released.setPool (ra := s.readAhead.shed p (s.placesOf p)) (by
    unfold State.released
    rw [State.setPort_readAhead]
    exact lawful.carries_shed p (s.placesOf p))
  have tracker : ∀ x, (s.released p x).tracker = s.tracker := fun x => by
    unfold State.released
    rw [State.setPort_tracker]
  have removed := pool.remove (tracker := s.tracker.filter fun e => !decide (e.port = p)) ?_ fun e mem => ?_
  · rw [State.cut_eq]
    refine removed.arrive fun e mem => ?_
    obtain ⟨mem, other⟩ := List.mem_filter.1 mem
    rintro (no | gone)
    · exact no
    · obtain ⟨e', mem', place, port⟩ := (s.mem_placesOf p e.place).1 gone
      rw [held.entry_eq mem' mem place] at port
      simp [port] at other
  · dsimp only
    rw [tracker]
    exact List.filter_sublist
  · dsimp only at mem
    rw [tracker] at mem
    by_cases port : e.port = p
    · exact .inr (.inr ((s.mem_placesOf p _).2 ⟨e, mem, rfl, port⟩))
    · exact .inl (List.mem_filter.2 ⟨mem, by simpa using port⟩)

end Cut

/-! ## Departures -/

/-- The records of a queue that depart and those that stay. -/
structure Parts (queue rest : List WriteRecord) (rs : List Report) : Prop where
  mem : ∀ r, r ∈ queue ↔ r ∈ rest ∨ ∃ d, (r, d) ∈ rs
  apart : ∀ r ∈ rest, ∀ x ∈ rs, r.place ≠ x.1.place
  once : (rs.map fun x => x.1.place).Nodup

/-- The head record departs, and with it those that `g` names. -/
theorem Parts.of_head {queue : List WriteRecord} {head : WriteRecord} {rest : List WriteRecord}
    (split : queue = head :: rest) (rise : (queue.map WriteRecord.place).Pairwise (· < ·)) (d : Departure)
    (g : WriteRecord → Bool) : Parts queue (rest.filter fun r => !g r)
      ((head, d) :: (rest.filter g).map fun r => (r, .withdrawn)) := by
  subst split
  rw [List.map_cons, List.pairwise_cons] at rise
  obtain ⟨first, rise⟩ := rise
  have below : ∀ r ∈ rest, head.place < r.place := fun r mem => first _ (List.mem_map_of_mem mem)
  have inj : ∀ r ∈ rest, ∀ r' ∈ rest, r.place = r'.place → r = r' := fun r mem r' mem' same =>
    List.inj_on_of_nodup_map (rise.imp Nat.ne_of_lt) mem mem' same
  refine ⟨fun r => ?_, fun r mem x hx => ?_, ?_⟩
  · simp only [List.mem_cons, List.mem_filter, Prod.mk.injEq, List.mem_map, Bool.not_eq_true']
    constructor
    · rintro (rfl | mem)
      · exact .inr ⟨d, .inl ⟨rfl, rfl⟩⟩
      · cases named : g r with
        | false => exact .inl ⟨mem, rfl⟩
        | true => exact .inr ⟨.withdrawn, .inr ⟨r, ⟨mem, named⟩, rfl, rfl⟩⟩
    · rintro (⟨mem, _⟩ | ⟨_, ⟨same, _⟩ | ⟨_, ⟨mem, _⟩, rfl, _⟩⟩)
      · exact .inr mem
      · exact .inl same
      · exact .inr mem
  · obtain ⟨mem, out⟩ := List.mem_filter.1 mem
    rcases List.mem_cons.1 hx with rfl | hx
    · exact (below r mem).ne'
    · obtain ⟨r', mem', rfl⟩ := List.mem_map.1 hx
      obtain ⟨mem', named⟩ := List.mem_filter.1 mem'
      intro same
      rw [inj r mem r' mem' same, named] at out
      cases out
  · rw [List.map_cons, List.map_map, List.nodup_cons]
    refine ⟨fun mem => ?_, ?_⟩
    · obtain ⟨r, mem, same⟩ := List.mem_map.1 mem
      exact (below r (List.mem_of_mem_filter mem)).ne' same
    · exact ((rise.imp Nat.ne_of_lt).sublist (List.filter_sublist.map _))

/-- The entries that departing records end. -/
def endedBy (rs : List Report) : List Nat :=
  rs.filterMap fun r => r.1.link

section Depart

variable {s : State} {rest : List WriteRecord} {rs : List Report}

theorem Entry.reported_acked {e : Entry} (acked : e.kind = .ackedWrite) (rs : List Report) : e.reported rs = e := by
  unfold Entry.reported
  rw [acked]

theorem Entry.reported_fits {e : Entry} {k : Claim} (fits : k.Fits e) : k.Fits (e.reported rs) := by
  cases k with
  | slot => exact (e.reported_state rs).trans fits
  | line => exact (e.reported_state rs).trans fits
  | link p t => rwa [Entry.reported_acked fits.1]
  | list p =>
    obtain ⟨done, own⟩ := fits
    refine ⟨?_, (e.reported_port rs).trans own⟩
    unfold Entry.isDone at done ⊢
    rwa [Entry.reported_state]

theorem State.departing_done (p : PortId) : ((s.departing rest rs).port p).done = (s.port p).done := by
  rw [State.departing_port]

theorem State.departing_claims (k : Claim) (x : Nat) : (s.departing rest rs).Claims k x ↔
    State.Claims { s with queue := rest } k x := by
  refine State.Claims.congr (by rw [State.departing_memPort]) (fun i => ?_) (s.departing_queue rest rs)
    (fun p => ?_) k x
  · rw [State.departing_readAhead]
    exact (ReadAhead.carries_dropRecords _ _).attached i
  · rw [State.departing_done]
    cases p <;> rfl

theorem State.emptied_places (s : State) (rs : List Report) : (s.emptied rs).map Prod.fst =
    (s.tracker.filter fun e => (e.completedBy rs).isSome).map Entry.place := by
  unfold State.emptied
  induction s.tracker with
  | nil => rfl
  | cons e rest ih =>
    rw [List.filterMap_cons, List.filter_cons]
    cases e.completedBy rs with
    | none => exact ih
    | some f => simp [ih]

/-- A departing record's link is its own place, and the ended entry is a queued acked write. -/
theorem State.WorkHeld.mem_endedBy {L : Nat → Prop} (held : s.WorkHeld L) (parts : Parts s.queue rest rs) {x : Nat}
    (mem : x ∈ endedBy rs) : ∃ r d, (r, d) ∈ rs ∧ r.link = some x ∧ x = r.place ∧
      s.Has x (Claim.Fits (.link r.port r.ackTag)) := by
  obtain ⟨⟨r, d⟩, mem, link⟩ := List.mem_filterMap.1 mem
  have queued := (parts.mem r).2 (.inr ⟨d, mem⟩)
  exact ⟨r, d, mem, link, held.links r queued x link, held.claimed _ x ⟨r, queued, link, rfl, rfl⟩⟩

theorem Entry.completedBy_some {e : Entry} (h : (e.completedBy rs).isSome = true) :
    ∃ f, e.kind = .fence f ∧ e.state = .pending := by
  unfold Entry.completedBy at h
  split at h
  · rename_i f kind state
    exact ⟨f, kind, state⟩
  · cases h

theorem State.mem_emptied (s : State) (rs : List Report) (x : Nat) : x ∈ (s.emptied rs).map Prod.fst ↔
    ∃ e ∈ s.tracker, e.place = x ∧ (e.completedBy rs).isSome = true := by
  rw [State.emptied_places]
  simp only [List.mem_map, List.mem_filter]
  exact ⟨fun ⟨e, ⟨mem, done⟩, place⟩ => ⟨e, mem, place, done⟩, fun ⟨e, mem, place, done⟩ => ⟨e, ⟨mem, done⟩, place⟩⟩

/-- No claim fits a PENDING fence. -/
theorem Claim.not_fits_pending {e : Entry} (pending : e.state = .pending) (k : Claim) : ¬ k.Fits e := by
  intro fits
  cases k with
  | slot =>
    rw [show e.state = _ from fits] at pending
    cases pending
  | line =>
    rw [show e.state = _ from fits] at pending
    cases pending
  | link p t =>
    obtain ⟨_, queued, _⟩ := fits
    rw [queued] at pending
    cases pending
  | list p =>
    obtain ⟨done, _⟩ := fits
    unfold Entry.isDone at done
    rw [pending] at done
    cases done

theorem Entry.reported_read {e : Entry} {r : ReadFields} (kind : e.kind = .read r) (rs : List Report) :
    ∃ r', (e.reported rs).kind = .read r' := by
  unfold Entry.reported
  rw [kind]
  exact ⟨_, rfl⟩

theorem Entry.reported_fence {e : Entry} {f : FenceFields} (kind : e.kind = .fence f) (state : e.state = .pending)
    (rs : List Report) : (e.reported rs).kind = .fence (f.reportAll rs) := by
  unfold Entry.reported
  rw [kind, state]

/-- An entry after the reports is where its state says, or has been ended or emptied by them. -/
theorem State.Keeps.reported {e : Entry} {u : State} (keeps : s.Keeps e) (mem : e ∈ s.tracker)
    (parts : Parts s.queue rest rs) (queue : u.queue = rest)
    (after : ∀ k x, s.Claims k x → u.Claims k x ∨ x ∈ endedBy rs) :
    (e.place ∈ endedBy rs ∨ e.place ∈ (s.emptied rs).map Prod.fst) ∨ u.Keeps (e.reported rs) := by
  unfold State.Keeps at keeps
  split at keeps
  · rename_i state kind
    obtain ⟨r', kind'⟩ := Entry.reported_read kind rs
    exact .inr (by simp only [State.Keeps, Entry.reported_state, state, kind'])
  · rename_i state kind
    obtain ⟨r', kind'⟩ := Entry.reported_read kind rs
    exact .inr (by simp only [State.Keeps, Entry.reported_state, state, kind'])
  · rename_i state kind
    obtain ⟨r', kind'⟩ := Entry.reported_read kind rs
    exact .inr (by simp only [State.Keeps, Entry.reported_state, state, kind'])
  · rename_i state kind
    obtain ⟨r', kind'⟩ := Entry.reported_read kind rs
    refine (after _ _ keeps).symm.imp .inl fun claim => ?_
    simpa only [State.Keeps, Entry.reported_state, Entry.reported_place, state, kind'] using claim
  · rename_i state kind
    obtain ⟨r', kind'⟩ := Entry.reported_read kind rs
    refine (after _ _ keeps).symm.imp .inl fun claim => ?_
    simpa only [State.Keeps, Entry.reported_state, Entry.reported_place, state, kind'] using claim
  · rename_i state kind
    obtain ⟨p, t, claim⟩ := keeps
    refine (after _ _ claim).symm.imp .inl fun claim => ?_
    rw [Entry.reported_acked kind]
    simp only [State.Keeps, state, kind]
    exact ⟨p, t, claim⟩
  · rename_i f state kind
    obtain ⟨waits, queued⟩ := keeps
    by_cases empty : (f.reportAll rs).horizon = []
    · refine .inl (.inr ((s.mem_emptied rs _).2 ⟨e, mem, rfl, ?_⟩))
      unfold Entry.completedBy
      rw [kind, state]
      dsimp only
      rw [if_pos ⟨waits, empty⟩]
      rfl
    · refine .inr ?_
      simp only [State.Keeps, Entry.reported_state, Entry.reported_fence kind state, state]
      refine ⟨empty, fun x hx => ?_⟩
      obtain ⟨old, stays⟩ := (f.reportAll_horizon rs x).1 hx
      obtain ⟨r, mem, rfl⟩ := List.mem_map.1 (queued x old)
      rw [State.queuedPlaces, queue]
      rcases (parts.mem r).1 mem with left | ⟨d, departs⟩
      · exact List.mem_map_of_mem left
      · exact absurd rfl (stays (r, d) departs)
  · rename_i state
    refine (after _ _ keeps).symm.imp .inl fun claim => ?_
    simpa only [State.Keeps, Entry.reported_state, Entry.reported_place, Entry.reported_port, state] using claim
  · exact keeps.elim

/-- The records leave the queue and every horizon: the entries they end, and the fences they empty, come into transit. -/
theorem State.WorkHeld.departing (held : s.WorkHeld noEntry) (parts : Parts s.queue rest rs)
    (noWrite : ∀ (i : SlotId) (place : Nat) (l : Addr) (d : Timer), s.memPort.slots[i] ≠ .busy (.write place) l d) :
    (s.departing rest rs).WorkHeld fun x => x ∈ endedBy rs ∨ x ∈ (s.emptied rs).map Prod.fst := by
  have carries : s.readAhead.Carries (s.departing rest rs).readAhead := by
    rw [State.departing_readAhead]
    exact ReadAhead.carries_dropRecords _ _
  have before (k : Claim) (x : Nat) (claim : (s.departing rest rs).Claims k x) : s.Claims k x := by
    rw [State.departing_claims] at claim
    cases k with
    | slot => exact claim
    | line => exact claim
    | link p t =>
      obtain ⟨r, mem, rest⟩ := claim
      exact ⟨r, (parts.mem r).2 (.inl mem), rest⟩
    | list p =>
      simp only [State.Claims] at claim ⊢
      cases p <;> exact claim
  have after (k : Claim) (x : Nat) (claim : s.Claims k x) :
      (s.departing rest rs).Claims k x ∨ x ∈ endedBy rs := by
    rw [State.departing_claims]
    cases k with
    | slot => exact .inl claim
    | line => exact .inl claim
    | link p t =>
      obtain ⟨r, mem, link, more⟩ := claim
      rcases (parts.mem r).1 mem with stays | ⟨d, departs⟩
      · exact .inl ⟨r, stays, link, more⟩
      · exact .inr (List.mem_filterMap.2 ⟨(r, d), departs, link⟩)
    | list p =>
      refine .inl ?_
      simp only [State.Claims] at claim ⊢
      cases p <;> exact claim
  refine ⟨?_, fun k x claim => ?_, fun x loose k claim => ?_, fun e' he' => ?_, ⟨?_, ?_, ?_⟩, ⟨fun i => ?_, fun i j x => ?_⟩,
    fun p => ?_, fun r mem => ?_⟩
  · rw [State.departing_tracker, List.map_map, show Entry.place ∘ Entry.reported rs = Entry.place from
      funext (Entry.reported_place rs)]
    exact held.places
  · obtain ⟨e, mem, place, fits⟩ := held.claimed k x (before k x claim)
    refine ⟨e.reported rs, ?_, (e.reported_place rs).trans place, Entry.reported_fits fits⟩
    rw [State.departing_tracker]
    exact List.mem_map_of_mem mem
  · rcases loose with ended | emptied
    · obtain ⟨r, d, departs, link, place, _⟩ := held.mem_endedBy parts ended
      have queued := (parts.mem r).2 (.inr ⟨d, departs⟩)
      have kind := held.claims_eq (before k x claim) (k' := .link r.port r.ackTag) ⟨r, queued, link, rfl, rfl⟩
      subst kind
      rw [State.departing_claims] at claim
      obtain ⟨r', stays, link', _⟩ := claim
      have place' := held.links r' ((parts.mem r').2 (.inl stays)) x link'
      exact parts.apart r' stays (r, d) departs (place'.symm.trans place)
    · obtain ⟨e, mem, rfl, done⟩ := (s.mem_emptied rs x).1 emptied
      obtain ⟨f, _, pending⟩ := Entry.completedBy_some done
      exact Claim.not_fits_pending pending k (held.fits mem (before k _ claim))
  · rw [State.departing_tracker] at he'
    obtain ⟨e, mem, rfl⟩ := List.mem_map.1 he'
    rw [Entry.reported_place]
    exact ((held.entries e mem).resolve_left id).reported mem parts (s.departing_queue rest rs) after
  · rw [State.departing_memPort]
    exact held.slots.once
  · rw [State.departing_memPort]
    exact fun i place l d busy => absurd busy (noWrite i place l d)
  · rw [State.departing_memPort]
    intro i k l d busy
    obtain ⟨line, found, fetching, target⟩ := held.slots.fetches i k l d busy
    obtain ⟨line', found', fetching', target'⟩ := carries.fetching k line found fetching
    exact ⟨line', found', fetching', target'.trans target⟩
  · rw [carries.attached]
    exact held.attached.nodup i
  · rw [carries.attached, carries.attached]
    exact held.attached.apart i j x
  · rw [State.departing_done]
    exact held.lists p
  · rw [State.departing_queue] at mem
    exact held.links r ((parts.mem r).2 (.inl mem))

/-- The ended entries become DONE in queue order (R64). -/
theorem State.WorkHeld.endEntries {N : Nat → Prop} (nodup : (endedBy rs).Nodup) (apart : ∀ x ∈ endedBy rs, ¬ N x)
    (held : s.WorkHeld fun x => x ∈ endedBy rs ∨ N x) : (rs.foldl State.endEntry s).WorkHeld N := by
  induction rs generalizing s with
  | nil => exact held.congr_loose fun x => by simp [endedBy]
  | cons r rs ih =>
    rw [List.foldl_cons]
    unfold State.endEntry
    unfold endedBy at nodup apart held
    rw [List.filterMap_cons] at nodup apart held
    cases link : r.1.link with
    | none =>
      rw [link] at nodup apart held
      exact ih nodup apart held
    | some x =>
      rw [link] at nodup apart held
      dsimp only at nodup apart held ⊢
      obtain ⟨out, nodup⟩ := List.nodup_cons.1 nodup
      refine ih nodup (fun y hy => apart y (List.mem_cons_of_mem _ hy)) ?_
      refine (held.finish (.inl List.mem_cons_self) _ []).congr_loose fun y => ?_
      constructor
      · rintro ⟨loose, ne⟩
        exact loose.imp (fun h => (List.mem_cons.1 h).resolve_left ne) id
      · rintro (later | other)
        · exact ⟨.inl (List.mem_cons_of_mem _ later), fun same => out (same ▸ later)⟩
        · exact ⟨.inr other, fun same => apart x List.mem_cons_self (same ▸ other)⟩

/-- The emptied fences become DONE in acceptance order, and those that purge retire every stream (R100, R102). -/
theorem State.WorkHeld.finishFences {done : List (Nat × FenceFields)} (nodup : (done.map Prod.fst).Nodup)
    (lawful : s.readAhead.Lawful noTarget) (held : s.WorkHeld fun x => x ∈ done.map Prod.fst) :
    (s.finishFences done).WorkHeld noEntry := by
  unfold State.finishFences
  induction done generalizing s with
  | nil => exact held.congr_loose fun x => by simp
  | cons x done ih =>
    rw [List.foldl_cons]
    obtain ⟨out, nodup⟩ := List.nodup_cons.1 nodup
    have ended := (held.finish List.mem_cons_self x.2.status []).congr_loose (L' := (· ∈ done.map Prod.fst))
      fun y => by
        constructor
        · rintro ⟨loose, ne⟩
          exact (List.mem_cons.1 loose).resolve_left ne
        · exact fun later => ⟨List.mem_cons_of_mem _ later, fun same => out (same ▸ later)⟩
    rw [State.finishFence_eq]
    split
    · rw [(ReadAhead.purge_eq _ _).1]
      refine ih nodup (lawful.retireWhere _) (ended.setPool ?_)
      rw [State.finish_readAhead]
      exact lawful.carries_retireWhere _
    · refine ih nodup lawful (ended.setPool ?_)
      rw [State.finish_readAhead]
      exact .refl _

/-- Links that name their own records end entries at the places of those records. -/
theorem endedBy_eq (own : ∀ r ∈ rs, ∀ x, r.1.link = some x → x = r.1.place) :
    endedBy rs = (rs.filter fun r => r.1.link.isSome).map fun r => r.1.place := by
  unfold endedBy
  induction rs with
  | nil => rfl
  | cons r rs ih =>
    have rest := ih fun r' mem => own r' (List.mem_cons_of_mem _ mem)
    have first := own r List.mem_cons_self
    rw [List.filterMap_cons, List.filter_cons]
    cases link : r.1.link with
    | none => simpa using rest
    | some x => simp [rest, first x link]

/-- Every event that takes records from the queue keeps the work held. -/
theorem State.WorkHeld.depart (held : s.WorkHeld noEntry) (parts : Parts s.queue rest rs)
    (noWrite : ∀ (i : SlotId) (place : Nat) (l : Addr) (d : Timer), s.memPort.slots[i] ≠ .busy (.write place) l d)
    (lawful : s.readAhead.Lawful noTarget) : (s.depart rest rs).WorkHeld noEntry := by
  have ended : (endedBy rs).Nodup := by
    rw [endedBy_eq fun r mem x link => held.links r.1 ((parts.mem r.1).2 (.inr ⟨r.2, mem⟩)) x link]
    exact parts.once.sublist (List.filter_sublist.map _)
  have emptied : ((s.emptied rs).map Prod.fst).Nodup := by
    rw [State.emptied_places]
    exact held.places.sublist (List.filter_sublist.map _)
  have apart : ∀ x ∈ endedBy rs, ¬ x ∈ (s.emptied rs).map Prod.fst := by
    intro x isEnded isEmptied
    obtain ⟨r, d, _, _, _, e, mem, place, fits⟩ := held.mem_endedBy parts isEnded
    obtain ⟨e', mem', place', done⟩ := (s.mem_emptied rs x).1 isEmptied
    obtain ⟨f, _, pending⟩ := Entry.completedBy_some done
    rw [held.entry_eq mem mem' (place.trans place'.symm)] at fits
    exact Claim.not_fits_pending pending _ fits
  have pool : (rs.foldl State.endEntry (s.departing rest rs)).readAhead.Lawful noTarget := by
    rw [foldl_keeps State.endEntry State.readAhead (fun _ _ => by simp) rs, State.departing_readAhead]
    exact lawful.dropRecords _
  rw [State.depart_eq]
  exact (((held.departing parts noWrite).endEntries ended apart).finishFences emptied pool).weighReads

end Depart

end Sys2Proof.Machine
end

section
/-! SUPPORT. Reasoning rules for held work at accepted requests and at the ends of fetches (O59). -/

namespace Sys2Proof.Machine

section Rules

variable {s : State} {L : Nat → Prop}

theorem State.setPool_done (s : State) (ra : ReadAhead) (p : PortId) :
    (State.port { s with readAhead := ra } p).done = (s.port p).done := by
  cases p <;> rfl

theorem State.claims_setPool (s : State) (ra : ReadAhead) {k : Claim} (h : k ≠ .line) (x : Nat) :
    State.Claims { s with readAhead := ra } k x ↔ s.Claims k x := by
  cases k with
  | line => exact absurd rfl h
  | list p =>
    simp only [State.Claims]
    rw [State.setPool_done]
  | slot => rfl
  | link p tag => rfl

/-- The pool changes at no attached read, and at no line that a slot owns. -/
theorem State.WorkHeld.setPool_of_slots (held : s.WorkHeld L) {ra : ReadAhead}
    (attached : ∀ i, ra.attachedTo i = s.readAhead.attachedTo i)
    (slots : State.SlotsLawful { s with readAhead := ra }) : State.WorkHeld L { s with readAhead := ra } := by
  have claims := State.Claims.congr (s := s) (u := { s with readAhead := ra }) rfl attached rfl (s.setPool_done ra)
  refine ⟨held.places, fun k x claim => held.claimed k x ((claims k x).1 claim),
    fun x loose k claim => held.loose x loose k ((claims k x).1 claim), fun e he => ?_, slots,
    ⟨fun i => ?_, fun i j x hi hj => ?_⟩, fun p => ?_, held.links⟩
  · exact (held.entries e he).imp id fun keeps => keeps.mono (fun k => (claims k _).2) fun x hx => hx
  · dsimp only
    rw [attached]
    exact held.attached.nodup i
  · dsimp only at hi hj
    rw [attached] at hi hj
    exact held.attached.apart i j x hi hj
  · rw [State.setPool_done]
    exact held.lists p

/-- A line that no slot owns changes its state. -/
theorem State.SlotsLawful.setPool_but (lawful : s.SlotsLawful) {k : LineId} {ra : ReadAhead}
    (none : ∀ (i : SlotId) (l : Addr) (d : Timer), s.memPort.slots[i] ≠ .busy (.fetch k) l d)
    (fetching : ∀ (j : LineId) (l : Line), j ≠ k → s.readAhead.lines[j] = some l → l.state = .fetching →
      ∃ l', ra.lines[j] = some l' ∧ l'.state = .fetching ∧ l'.target = l.target) :
    State.SlotsLawful { s with readAhead := ra } where
  once := lawful.once
  writes := lawful.writes
  fetches i j line d slot := by
    obtain ⟨l, before, on, target⟩ := lawful.fetches i j line d slot
    obtain ⟨l', after, on', target'⟩ := fetching j l (fun same => none i line d (same ▸ slot)) before on
    exact ⟨l', after, on', target'.trans target⟩

/-- A read in transit is attached to a line on its way (R73). -/
theorem State.WorkHeld.attach (held : s.WorkHeld L) {i : LineId} {l : Line} {e : Entry} {r : ReadFields}
    (line : s.readAhead.lines[i] = some l) (mem : e ∈ s.tracker) (loose : L e.place) (kind : e.kind = .read r)
    (state : e.state = .attached) :
    State.WorkHeld (fun y => L y ∧ y ≠ e.place) { s with readAhead := s.readAhead.attach i e.place } := by
  have attached (j : LineId) : (s.readAhead.attach i e.place).attachedTo j =
      s.readAhead.attachedTo j ++ if j = i then [e.place] else [] := by
    rw [ReadAhead.attach_of_some line, ReadAhead.attachedTo_eq, ReadAhead.attachedTo_eq, ReadAhead.setLine_lines]
    split
    · rename_i same
      rw [same, line]
      rfl
    · rw [List.append_nil]
  have out (j : LineId) : e.place ∉ s.readAhead.attachedTo j := fun mem => held.loose e.place loose .line ⟨j, mem⟩
  have claims (k : Claim) (x : Nat) : State.Claims { s with readAhead := s.readAhead.attach i e.place } k x ↔
      s.Claims k x ∨ (x = e.place ∧ k = .line) := by
    by_cases same : k = .line
    · subst same
      simp only [State.Claims, attached, List.mem_append, and_true]
      constructor
      · rintro ⟨j, old | new⟩
        · exact .inl ⟨j, old⟩
        · split at new
          · exact .inr (List.mem_singleton.1 new)
          · cases new
      · rintro (⟨j, old⟩ | rfl)
        · exact ⟨j, .inl old⟩
        · exact ⟨i, .inr (by rw [if_pos rfl]; exact List.mem_singleton_self _)⟩
    · rw [State.claims_setPool s _ same]
      simp [same]
  refine held.gain loose rfl (fun _ h => h) claims ⟨e, mem, rfl, state⟩ (fun e' mem' place => ?_)
    (held.slots.congr rfl rfl fun k m found fetching => ?_) ⟨fun j => ?_, fun j j' x hj hj' => ?_⟩
    (fun p => by rw [State.setPool_done]; exact held.lists p) held.links
  · rw [held.entry_eq mem' mem place]
    simp only [State.Keeps, state, kind]
    exact (claims .line e.place).2 (.inr ⟨rfl, rfl⟩)
  · dsimp only
    rw [ReadAhead.attach_of_some line, ReadAhead.setLine_lines]
    split
    · rename_i same
      rw [same, line] at found
      cases found
      exact ⟨_, rfl, fetching, rfl⟩
    · exact ⟨m, found, fetching, rfl⟩
  · dsimp only
    rw [attached]
    split
    · exact List.nodup_append.2 ⟨held.attached.nodup j, List.nodup_singleton _, fun x hx y hy same => by
        rw [List.mem_singleton.1 hy] at same
        exact out j (same ▸ hx)⟩
    · rw [List.append_nil]
      exact held.attached.nodup j
  · dsimp only at hj hj'
    rw [attached, List.mem_append] at hj hj'
    have new {m : LineId} (h : x ∈ if m = i then [e.place] else []) : m = i ∧ x = e.place := by
      split at h
      · rename_i same
        exact ⟨same, List.mem_singleton.1 h⟩
      · cases h
    rcases hj with old | last
    · rcases hj' with old' | last'
      · exact held.attached.apart j j' x old old'
      · exact absurd ((new last').2 ▸ old) (out j)
    · rcases hj' with old' | last'
      · exact absurd ((new last).2 ▸ old') (out j')
      · rw [(new last).1, (new last').1]

/-! ## Records -/

theorem State.setQueue_done (s : State) (q : List WriteRecord) (p : PortId) :
    (State.port { s with queue := q } p).done = (s.port p).done := by
  cases p <;> rfl

theorem State.SlotsLawful.enqueue (lawful : s.SlotsLawful) (r : WriteRecord) :
    State.SlotsLawful { s with queue := s.queue ++ [r] } where
  once := lawful.once
  writes i place line d slot := by
    obtain ⟨head, rest, queue, fields⟩ := lawful.writes i place line d slot
    exact ⟨head, rest ++ [r], by dsimp only; rw [queue]; rfl, fields⟩
  fetches := lawful.fetches

theorem State.claims_enqueue (s : State) (r : WriteRecord) (k : Claim) (x : Nat) :
    State.Claims { s with queue := s.queue ++ [r] } k x ↔
      s.Claims k x ∨ (r.link = some x ∧ k = .link r.port r.ackTag) := by
  cases k with
  | link p tag =>
    simp only [State.Claims, List.mem_append, List.mem_singleton, Claim.link.injEq]
    constructor
    · rintro ⟨r', old | rfl, link, port, name⟩
      · exact .inl ⟨r', old, link, port, name⟩
      · exact .inr ⟨link, port.symm, name.symm⟩
    · rintro (⟨r', old, more⟩ | ⟨link, port, name⟩)
      · exact ⟨r', .inl old, more⟩
      · exact ⟨r, .inr rfl, link, port.symm, name.symm⟩
  | list p =>
    simp only [State.Claims, reduceCtorEq, and_false, or_false]
    rw [State.setQueue_done]
  | slot => simp [State.Claims]
  | line => simp [State.Claims]

theorem mem_enqueue {q : List WriteRecord} {r : WriteRecord} {P : WriteRecord → Prop} (old : ∀ r' ∈ q, P r')
    (new : P r) : ∀ r' ∈ q ++ [r], P r' := by
  intro r' mem
  rcases List.mem_append.1 mem with before | last
  · exact old r' before
  · rw [List.mem_singleton.1 last]
    exact new

/-- A posted record joins the queue. -/
theorem State.WorkHeld.enqueue (held : s.WorkHeld L) {r : WriteRecord} (link : r.link = none) :
    State.WorkHeld L { s with queue := s.queue ++ [r] } := by
  have claims (k : Claim) (x : Nat) : State.Claims { s with queue := s.queue ++ [r] } k x ↔ s.Claims k x := by
    rw [State.claims_enqueue]
    simp [link]
  refine ⟨held.places, fun k x claim => held.claimed k x ((claims k x).1 claim),
    fun x loose k claim => held.loose x loose k ((claims k x).1 claim), fun e he => ?_, held.slots.enqueue r,
    held.attached, fun p => by rw [State.setQueue_done]; exact held.lists p,
    mem_enqueue held.links fun x hx => by rw [link] at hx; cases hx⟩
  refine (held.entries e he).imp id fun keeps => keeps.mono (fun k => (claims k _).2) fun x hx => ?_
  rw [State.queuedPlaces, List.map_append]
  exact List.mem_append_left _ hx

/-- An acked record joins the queue with its entry, which was in transit (R25). -/
theorem State.WorkHeld.enqueue_acked (held : s.WorkHeld L) {r : WriteRecord} {e : Entry} (mem : e ∈ s.tracker)
    (loose : L e.place) (link : r.link = some e.place) (place : r.place = e.place)
    (fits : Claim.Fits (.link r.port r.ackTag) e) :
    State.WorkHeld (fun y => L y ∧ y ≠ e.place) { s with queue := s.queue ++ [r] } := by
  have claims (k : Claim) (x : Nat) : State.Claims { s with queue := s.queue ++ [r] } k x ↔
      s.Claims k x ∨ (x = e.place ∧ k = .link r.port r.ackTag) := by
    rw [State.claims_enqueue, link, Option.some.injEq, eq_comm (a := e.place)]
  refine held.gain loose rfl (fun x hx => ?_) claims ⟨e, mem, rfl, fits⟩ (fun e' mem' same => ?_)
    (held.slots.enqueue r) held.attached (fun p => by rw [State.setQueue_done]; exact held.lists p)
    (mem_enqueue held.links fun x hx => by rw [link] at hx; cases hx; exact place.symm)
  · rw [State.queuedPlaces, List.map_append]
    exact List.mem_append_left _ hx
  · rw [held.entry_eq mem' mem same]
    have claim := (claims (.link r.port r.ackTag) e.place).2 (.inr ⟨rfl, rfl⟩)
    obtain ⟨kind, state, _⟩ := fits
    simp only [State.Keeps, state, kind]
    exact ⟨_, _, claim⟩

/-! ## Fetches -/

/-- The reads of a line come into transit when its fetch ends. -/
theorem State.WorkHeld.detach (held : s.WorkHeld L) {k : LineId} {ra : ReadAhead}
    (carries : s.readAhead.CarriesBut k ra)
    (none : ∀ (i : SlotId) (l : Addr) (d : Timer), s.memPort.slots[i] ≠ .busy (.fetch k) l d) :
    State.WorkHeld (fun x => L x ∨ x ∈ s.readAhead.attachedTo k) { s with readAhead := ra } := by
  have attached (j : LineId) (x : Nat) : x ∈ ra.attachedTo j ↔ x ∈ s.readAhead.attachedTo j ∧ j ≠ k := by
    by_cases same : j = k
    · rw [same, carries.emptied]
      simp
    · rw [carries.attached j same]
      simp [same]
  refine held.lose rfl (fun _ h => h) (fun c x claim => ?_) (fun c x claim => ?_) (fun x gone c claim => ?_)
    (held.slots.setPool_but none carries.fetching) ⟨fun j => ?_, fun j j' x hj hj' => ?_⟩
    (fun p => by rw [State.setPool_done]; exact held.lists p) held.links
  · by_cases line : c = .line
    · subst line
      obtain ⟨j, mem⟩ := claim
      exact ⟨j, ((attached j x).1 mem).1⟩
    · exact (State.claims_setPool s ra line x).1 claim
  · by_cases line : c = .line
    · subst line
      obtain ⟨j, mem⟩ := claim
      by_cases same : j = k
      · exact .inr (same ▸ mem)
      · exact .inl ⟨j, (attached j x).2 ⟨mem, same⟩⟩
    · exact .inl ((State.claims_setPool s ra line x).2 claim)
  · by_cases line : c = .line
    · subst line
      obtain ⟨j, mem⟩ := claim
      obtain ⟨before, ne⟩ := (attached j x).1 mem
      exact ne (held.attached.apart j k x before gone)
    · exact line (held.claims_eq ((State.claims_setPool s ra line x).1 claim) ⟨k, gone⟩)
  · by_cases same : j = k
    · dsimp only
      rw [same, carries.emptied]
      exact List.nodup_nil
    · dsimp only
      rw [carries.attached j same]
      exact held.attached.nodup j
  · exact held.attached.apart j j' x ((attached j x).1 hj).1 ((attached j' x).1 hj').1

/-- Ends of entries and changes of the pool do not meet. -/
theorem State.finish_setPool (s : State) (ra : ReadAhead) (place : Nat) (status : Status) (data : List Byte) :
    State.finish { s with readAhead := ra } place status data =
      { s.finish place status data with readAhead := ra } := by
  unfold State.finish
  rw [show State.entryAt { s with readAhead := ra } place = s.entryAt place from rfl]
  cases s.entryAt place with
  | none => rfl
  | some e =>
    obtain ⟨_, port, _⟩ := e
    cases port <;> rfl

theorem State.foldl_finish_setPool (ra : ReadAhead) (status : Status) (data : State → Nat → List Byte)
    (xs : List Nat) (s : State) :
    { xs.foldl (fun t x => t.finish x status (data t x)) s with readAhead := ra } =
      xs.foldl (fun t x => t.finish x status (data { t with readAhead := s.readAhead } x))
        { s with readAhead := ra } := by
  induction xs generalizing s with
  | nil => rfl
  | cons x xs ih =>
    rw [List.foldl_cons, List.foldl_cons, ih, State.finish_readAhead,
      ← s.finish_setPool ra x status (data s x)]

end Rules

end Sys2Proof.Machine
end

section
/-! Every piece of work is held in exactly one place, after every step (O59). -/

namespace Sys2Proof.Machine

section Moves

variable {s u : State}

/-! ## The head record -/

theorem Told.tailQueued {f v : State} {owner : SlotOwner} (told : Told s f owner v) (tail : s.TailQueued)
    (queue : f.queue = s.queue) : v.TailQueued := by
  have same {t : State} (h : t.queue = s.queue) : t.TailQueued := by
    unfold State.TailQueued
    rwa [h]
  cases told with
  | nobody _ => exact same queue
  | ended place status data => exact same (by simpa using queue)
  | waits n t _ _ => exact same queue
  | @departs head rest d g split =>
    intro r mem
    rw [State.depart_queue] at mem
    refine tail r ?_
    rw [split]
    exact List.mem_of_mem_filter (List.mem_of_mem_tail mem)
  | headWaits n t split =>
    intro r mem
    refine tail r ?_
    rw [split]
    exact mem
  | fetchEnds status data _ _ =>
    exact same ((foldl_keeps _ State.queue (fun _ _ => by simp) _ _).trans queue)
  | fetchWaits n t _ => exact same queue

theorem Move.keeps_tailQueued (move : Move s u) (tail : s.TailQueued) : u.TailQueued := by
  have same {t : State} (h : t.queue = s.queue) : t.TailQueued := by
    unfold State.TailQueued
    rwa [h]
  have empty {t : State} (h : t.queue = []) : t.TailQueued := by
    intro r mem
    rw [h] at mem
    cases mem
  cases move with
  | quiet h => exact same (State.fields_of_bare h).1
  | params new _ _ => exact same (by rw [State.replaceParams_eq])
  | powerOn => exact empty rfl
  | warmReset => exact empty s.warmReset_blank.queue
  | linkUp p => exact same (by simp)
  | cut p state _ _ =>
    intro r mem
    rw [State.cut, State.setPort_queue, ← List.map_tail] at mem
    obtain ⟨r₀, before, rfl⟩ := List.mem_map.1 mem
    obtain ⟨_, _, _, state, _⟩ := r₀.unlinked_fields p
    exact state.trans (tail r₀ before)
  | readJoins _ _ _ => exact same (by simp [State.addRead])
  | doneJoins _ _ _ _ _ _ _ _ _ => exact same (by simp)
  | attaches _ _ _ _ _ => exact same (by simp [State.addRead])
  | writeDropped _ _ _ => exact same (by simp)
  | writeJoins r _ _ _ state _ _ =>
    rw [State.takePlace_eq]
    intro r' mem
    dsimp only at mem
    cases queue : s.queue with
    | nil =>
      rw [queue] at mem
      cases mem
    | cons head rest =>
      rw [queue] at mem
      rcases List.mem_append.1 (show r' ∈ rest ++ [r] from mem) with before | last
      · exact tail r' (queue ▸ before)
      · rw [List.mem_singleton.1 last]
        exact state
  | fenceJoins _ _ _ _ => exact same (by simp)
  | @granted slot g _ choice =>
    cases g with
    | write w =>
      obtain ⟨⟨rest, queue⟩, _⟩ := State.headCandidate_some (State.chooseGrant_write choice)
      rw [State.grantTo_write queue]
      intro r mem
      refine tail r ?_
      rw [queue]
      exact mem
    | demand e r => exact same rfl
    | fetch i => exact same rfl
  | told _ _ told weighed =>
    have ends := told.tailQueued tail rfl
    obtain ⟨_, rfl⟩ | rfl := weighed
    · exact ends
    · exact ends
  | headReady queue _ =>
    intro r mem
    refine tail r ?_
    rw [queue]
    exact mem
  | completionSent _ _ =>
    refine same ?_
    unfold State.freeEntry
    split <;> simp
  | completionBegun p _ _ => exact same (by simp)
  | creditBegun p _ => exact same (by simp)
  | linkIdle p => exact same (by simp)
  | _ => exact tail

/-! ## Held work -/

/-- A blank part with resting ports holds nothing. -/
theorem State.Blank.workHeld (blank : s.Blank) (idle : s.Idle) : s.WorkHeld noEntry := by
  have done (p : PortId) : (s.port p).done = [] := by
    obtain ⟨⟨_, _, done, _⟩, _⟩ := idle p (by rw [blank.down p]; exact fun h => (nomatch h))
    exact done
  have attached (i : LineId) : s.readAhead.attachedTo i = [] := by
    rw [ReadAhead.attachedTo_eq, blank.lines]
    rfl
  have busy (i : SlotId) (owner : SlotOwner) (l : Addr) (d : Timer) : s.memPort.slots[i] ≠ .busy owner l d := by
    rw [blank.slots]
    exact fun h => (nomatch h)
  have claims (k : Claim) (x : Nat) : ¬ s.Claims k x := by
    cases k with
    | slot => exact fun ⟨i, l, d, h⟩ => busy i _ l d h
    | line =>
      rintro ⟨i, mem⟩
      rw [attached] at mem
      cases mem
    | link p tag =>
      rintro ⟨r, mem, _⟩
      rw [blank.queue] at mem
      cases mem
    | list p =>
      simp only [State.Claims, done]
      exact fun h => (nomatch h)
  refine ⟨by rw [blank.tracker]; exact List.nodup_nil, fun k x claim => absurd claim (claims k x),
    fun x _ k => claims k x, fun e he => ?_, ⟨fun i j owner l l' d d' _ h => absurd h (busy i owner l d),
      fun i place l d h => absurd h (busy i _ l d), fun i k l d h => absurd h (busy i _ l d)⟩,
    ⟨fun i => ?_, fun i j x h => ?_⟩, fun p => ?_, fun r mem => ?_⟩
  · rw [blank.tracker] at he
    cases he
  · rw [attached]
    exact List.nodup_nil
  · rw [attached] at h
    cases h
  · rw [done]
    exact List.nodup_nil
  · rw [blank.queue] at mem
    cases mem

/-- The entry that was in transit is the only one, and it has come out. -/
theorem State.WorkHeld.none_left {L : Nat → Prop} {x : Nat} (held : s.WorkHeld fun y => L y ∧ y ≠ x)
    (only : ∀ y, L y → y = x) : s.WorkHeld noEntry :=
  held.congr_loose fun y => ⟨fun ⟨loose, ne⟩ => ne (only y loose), fun no => no.elim⟩

theorem Port.spend_done (r : Request) (x : Port) : (r.spend x).done = x.done := rfl

theorem State.WorkHeld.spentBy {L : Nat → Prop} (held : s.WorkHeld L) (p : PortId) (r : Request) :
    (s.spentBy p r).WorkHeld L := by
  refine held.congr (by simp) (by simp) (by simp) (by simp) fun q => ?_
  rw [State.spentBy_port]
  split
  · rename_i same
    rw [same, Port.spend_done]
  · rfl

/-- A port changes, and not in its list. -/
theorem State.WorkHeld.setPort {L : Nat → Prop} (held : s.WorkHeld L) {p : PortId} {x : Port}
    (done : x.done = (s.port p).done) : (s.setPort p x).WorkHeld L := by
  refine held.congr (by simp) (by simp) (by simp) (by simp) fun q => ?_
  rw [State.setPort_port]
  split
  · rename_i same
    rw [same, done]
  · rfl

theorem State.Ordered.fresh (ordered : s.Ordered) : ∀ e ∈ s.tracker, e.place ≠ s.nextPlace :=
  fun e mem => Nat.ne_of_lt (ordered.below _ (.inr (.inl ⟨e, mem, e.place_mem_places⟩)))

/-- A slot that has been vacated does not hold its owner, and no other slot does. -/
theorem State.SlotsLawful.vacated (lawful : s.SlotsLawful) {i : SlotId} {owner : SlotOwner} {line : Addr}
    {d : Timer} (busy : s.memPort.slots[i] = .busy owner line d) (present : owner ≠ .demand none) {slot : Slot}
    (idle : slot.isBusy = false) (j : SlotId) (l : Addr) (d' : Timer) :
    (s.setSlot i slot).memPort.slots[j] ≠ .busy owner l d' := by
  intro h
  rw [State.setSlot, set_getElem_fin] at h
  split at h
  · rw [h] at idle
    cases idle
  · rename_i other
    exact other (lawful.once j i owner l line d' d present h busy)

theorem State.Keeps.read_of_backoff {e : Entry} {t : Timer} (keeps : s.Keeps e) (state : e.state = .backoff t) :
    ∃ r, e.kind = .read r := by
  unfold State.Keeps at keeps
  rw [state] at keeps
  cases kind : e.kind with
  | read r => exact ⟨r, rfl⟩
  | ackedWrite =>
    rw [kind] at keeps
    exact keeps.elim
  | fence f =>
    rw [kind] at keeps
    exact keeps.elim

/-- An entry in no slot and on no list goes to another state, in which no claim is due. -/
theorem State.WorkHeld.rest {L : Nat → Prop} {f : Entry → Entry} {x : Nat} (held : s.WorkHeld L) (loose : L x)
    (places : ∀ e, (f e).place = e.place) (others : ∀ e, e.place ≠ x → f e = e)
    (keeps : ∀ e ∈ s.tracker, e.place = x → State.Keeps { s with tracker := s.tracker.map f } (f e)) :
    State.WorkHeld (fun y => L y ∧ y ≠ x) { s with tracker := s.tracker.map f } := by
  refine (held.map_loose places fun e _ stays => others e fun same => stays (same ▸ loose)).settle fun e' mem place => ?_
  obtain ⟨e, old, rfl⟩ := List.mem_map.1 mem
  exact keeps e old ((places e).symm.trans place)

/-- What the owner of a vacated slot is told takes it out of transit. -/
theorem Told.workHeld {i : SlotId} {owner : SlotOwner} {line : Addr} {d : Timer} {slot : Slot} {v : State}
    (lawful : s.WorkLawful) (busy : s.memPort.slots[i] = .busy owner line d) (idle : slot.isBusy = false)
    (told : Told s (s.setSlot i slot) owner v) : v.WorkHeld noEntry := by
  have vacant : (s.setSlot i slot).WorkHeld fun x => noEntry x ∨ owner = .demand (some x) :=
    lawful.held.vacate busy idle rfl
  have settled (h : ∀ x, owner ≠ .demand (some x)) : (s.setSlot i slot).WorkHeld noEntry :=
    vacant.congr_loose fun x => ⟨fun loose => loose.elim id (h x), fun no => no.elim⟩
  have only {place : Nat} (h : owner = .demand (some place)) (y : Nat)
      (loose : noEntry y ∨ owner = .demand (some y)) : y = place := by
    rcases loose with no | own
    · exact no.elim
    · rw [h] at own
      cases own
      rfl
  cases told with
  | nobody absent =>
    rcases absent with rfl | unsound
    · exact settled fun x h => (nomatch h)
    · rw [(State.workSound_iff s).2 lawful] at unsound
      cases unsound
  | ended place status data =>
    exact (vacant.finish (.inr rfl) status data).none_left (only rfl)
  | @waits place e r n t found kind =>
    obtain ⟨mem, rfl⟩ := State.entryAt_some found
    refine (vacant.rest (x := e.place) (.inr rfl) (fun x => ?_) (fun x other => if_neg other)
      fun x _ same => ?_).none_left (only rfl)
    · split <;> rfl
    · rw [if_pos same]
      trivial
  | @departs head rest d g queue =>
    have noWrite (j : SlotId) (place : Nat) (l : Addr) (d' : Timer) :
        (s.setSlot i slot).memPort.slots[j] ≠ .busy (.write place) l d' := by
      intro h
      obtain ⟨r, rest', queue', place', _⟩ := (settled fun x h => (nomatch h)).slots.writes j place l d' h
      change s.queue = r :: rest' at queue'
      rw [queue] at queue'
      cases queue'
      exact lawful.held.slots.vacated busy (fun h => (nomatch h)) idle j l d' (place' ▸ h)
    exact (settled fun x h => (nomatch h)).depart (.of_head queue lawful.ordered.queue d g) noWrite
      lawful.pooled.lawful
  | @headWaits head rest n t queue =>
    refine (settled fun x h => (nomatch h)).head (head := head) queue rfl rfl rfl rfl fun j place l d' h => ?_
    obtain ⟨r, rest', queue', place', _⟩ := (settled fun x h => (nomatch h)).slots.writes j place l d' h
    change s.queue = r :: rest' at queue'
    rw [queue] at queue'
    cases queue'
    exact lawful.held.slots.vacated busy (fun h => (nomatch h)) idle j l d' (place' ▸ h)
  | @fetchEnds k l ra status data found ends =>
    have none := lawful.held.slots.vacated busy (fun h => (nomatch h)) idle
    have detached := (settled fun x h => (nomatch h)).detach
      (lawful.pooled.lawful.carriesBut_lineEnd ends) none
    rw [State.foldl_finish_setPool]
    have reads : (s.setSlot i slot).readAhead.attachedTo k = l.attached := ReadAhead.attachedTo_of_some found
    rw [reads] at detached
    refine (detached.congr_loose fun x => or_comm).finish_all status _ ?_ fun x _ no => no
    rw [← ReadAhead.attachedTo_of_some found]
    exact lawful.held.attached.nodup k
  | @fetchWaits k l n t found =>
    have none := lawful.held.slots.vacated busy (fun h => (nomatch h)) idle
    have ready := settled fun x h => (nomatch h)
    refine ready.setPool_of_slots (fun j => ?_) (ready.slots.setPool_but none fun j m other line fetching => ?_)
    · rw [ReadAhead.attachedTo_eq, ReadAhead.setLine_lines]
      split
      · rename_i same
        rw [same]
        exact (ReadAhead.attachedTo_of_some found).symm
      · rfl
    · rw [ReadAhead.setLine_lines, if_neg other]
      exact ⟨m, line, fetching, rfl⟩

/-- A read candidate is a READY entry (R53). -/
theorem State.demandCandidate_some {e : Entry} {r : ReadFields} (h : s.demandCandidate = some (e, r)) :
    e ∈ s.tracker ∧ e.kind = .read r ∧ e.state = .ready := by
  obtain ⟨e', mem, h⟩ := List.exists_of_findSome?_eq_some h
  split at h
  · rename_i kind state
    cases h
    exact ⟨mem, kind, state⟩
  · cases h

theorem State.chooseGrant_demand {e : Entry} {r : ReadFields} (h : s.chooseGrant = some (.demand e r)) :
    s.demandCandidate = some (e, r) := by
  unfold State.chooseGrant at h
  split at h
  · rename_i demand
    split at h
    · cases h
    · cases h
      exact demand
  · cases h
  · rename_i demand
    cases h
    exact demand
  · rw [Option.map_eq_some_iff] at h
    obtain ⟨_, _, h⟩ := h
    cases h

/-- A fetch candidate is PENDING and not in backoff (R80, R81). -/
theorem State.chooseGrant_fetch {i : LineId} (h : s.chooseGrant = some (.fetch i)) :
    ∃ l, s.readAhead.lines[i] = some l ∧ l.state = .pending none := by
  unfold State.chooseGrant at h
  split at h
  · split at h <;> cases h
  · cases h
  · cases h
  · rw [Option.map_eq_some_iff] at h
    obtain ⟨j, candidate, h⟩ := h
    cases h
    unfold State.fetchGrantable at candidate
    split at candidate
    · have eligible := (ReadAhead.earliest_some candidate).1
      obtain ⟨l, line, eligible⟩ := ReadAhead.lineIs_true.1 eligible
      unfold lineEligible at eligible
      rw [Bool.and_eq_true, decide_eq_true_eq] at eligible
      exact ⟨l, line, eligible.1⟩
    · cases candidate

theorem Claim.not_fits_waiting {e : Entry} (waits : e.state = .ready ∨ e.state = .orderWait ∨ ∃ t, e.state = .backoff t)
    (k : Claim) : ¬ k.Fits e := by
  intro fits
  cases k with
  | slot => simp [show e.state = _ from fits] at waits
  | line => simp [show e.state = _ from fits] at waits
  | link p t =>
    obtain ⟨_, queued, _⟩ := fits
    simp [queued] at waits
  | list p =>
    obtain ⟨done, _⟩ := fits
    unfold Entry.isDone at done
    split at done
    · rename_i state
      simp [state] at waits
    · cases done

theorem State.WorkLawful.granted (lawful : s.WorkLawful) {slot : SlotId} {g : Grant}
    (free : s.memPort.lowestFree = some slot) (choice : s.chooseGrant = some g) :
    (s.grantTo slot g).WorkHeld noEntry := by
  have held := lawful.held
  have isFree := MemPort.lowestFree_some free
  cases g with
  | write w =>
    obtain ⟨⟨rest, queue⟩, queued, none⟩ := State.headCandidate_some (State.chooseGrant_write choice)
    have noWrite (i : SlotId) (place : Nat) (l : Addr) (d : Timer) :
        s.memPort.slots[i] ≠ .busy (.write place) l d := by
      intro h
      have := none i
      rw [h] at this
      cases this
    have issued := held.head (head' := { w with state := .issued }) queue rfl rfl rfl rfl noWrite
    rw [State.grantTo_write queue]
    refine issued.fill (owner := .write w.place) isFree rfl (fun x h => (nomatch h)) (issued.slots.fill rfl
      (fun j => noWrite j w.place) (fun place own => ?_) fun k own => (nomatch own))
    cases own
    exact ⟨_, rest, rfl, rfl, rfl, rfl⟩
  | demand e r =>
    obtain ⟨mem, kind, ready⟩ := State.demandCandidate_some (State.chooseGrant_demand choice)
    have loose := held.loosen mem (Claim.not_fits_waiting (.inl ready))
    have set := loose.map_loose (f := fun x => if x.place = e.place then { x with state := .issued } else x)
      (fun x => by split <;> rfl) fun x _ stays => if_neg fun same => stays (.inr same)
    have mem' : { e with state := .issued } ∈ setEntryState s.tracker e.place .issued :=
      mem_setEntryState.2 (.inr ⟨e, mem, rfl, rfl⟩)
    rw [State.grantTo_demand]
    exact (set.fill_read (e := { e with state := .issued }) isFree (m := s.grantedPort slot (.demand e r)) rfl mem'
      (.inr rfl) kind rfl).none_left fun y loose => loose.resolve_left id
  | fetch i =>
    obtain ⟨l, line, pending⟩ := State.chooseGrant_fetch choice
    have notOn : l.state ≠ .fetching := by
      rw [pending]
      exact fun h => (nomatch h)
    have issue : s.readAhead.issue i = s.readAhead.setLine i (some { l with state := .fetching }) := by
      unfold ReadAhead.issue
      rw [line]
    have alone (j : SlotId) (a : Addr) (d : Timer) : s.memPort.slots[j] ≠ .busy (.fetch i) a d := by
      intro busy
      obtain ⟨l', line', on, _⟩ := held.slots.fetches j i a d busy
      rw [line] at line'
      cases line'
      exact notOn on
    have issued := held.setPool (ra := s.readAhead.issue i) (issue ▸ ReadAhead.Carries.change line
      (.of_some rfl fun on => absurd on notOn))
    have target : s.readAhead.targetOf i = l.target := by
      unfold ReadAhead.targetOf
      rw [line]
    rw [State.grantTo_fetch]
    refine issued.fill (owner := .fetch i) isFree rfl (fun x h => (nomatch h)) (issued.slots.fill rfl alone
      (fun place own => (nomatch own)) fun k own => ?_)
    cases own
    refine ⟨{ l with state := .fetching }, ?_, rfl, target.symm⟩
    dsimp only
    rw [issue, ReadAhead.setLine_lines, if_pos rfl]

/-- A new entry joins where its state says. -/
theorem State.WorkHeld.join_settled (held : s.WorkHeld noEntry) {e : Entry}
    (fresh : ∀ x ∈ s.tracker, x.place ≠ e.place) (keeps : (s.addEntry e).Keeps e) :
    (s.addEntry e).WorkHeld noEntry := by
  have joined := held.addEntry fresh
  refine (joined.settle fun e' mem same => ?_).none_left fun y loose => loose.resolve_left id
  rw [joined.entry_eq mem (List.mem_append_right _ (List.mem_singleton_self e)) same]
  exact keeps

/-- The entry of a completed message leaves the tracker (R65). -/
theorem State.WorkHeld.freeEntry {p : PortId} {place : Nat} (held : s.WorkHeld fun x => noEntry x ∨ x = place)
    {e : Entry} (mem : e ∈ s.tracker) (named : e.place = place) (port : e.port = p) :
    (s.freeEntry p place).WorkHeld noEntry := by
  have only : ∀ x ∈ s.tracker, x.place = place → x = e := fun x hx same =>
    held.entry_eq hx mem (same.trans named.symm)
  have lives : (s.tracker.any fun x => x.place = place ∧ x.port = p) = true :=
    List.any_eq_true.2 ⟨e, mem, decide_eq_true ⟨named, port⟩⟩
  obtain ⟨gone, before, after, _, isGone, split, erased⟩ := List.exists_of_eraseP
    (p := fun x => decide (x.place = place ∧ x.port = p)) mem (decide_eq_true ⟨named, port⟩)
  rw [decide_eq_true_iff] at isGone
  have removed := held.remove (tracker := s.tracker.eraseP fun x => decide (x.place = place ∧ x.port = p))
    List.eraseP_sublist fun x hx => by
      rw [split] at hx
      rw [erased]
      rcases List.mem_append.1 hx with hx | hx
      · exact .inl (List.mem_append_left _ hx)
      · rcases List.mem_cons.1 hx with rfl | hx
        · exact .inr (.inr isGone.1)
        · exact .inl (List.mem_append_right _ hx)
  have arrived := removed.arrive fun x hx => by
    rintro (no | same)
    · exact no
    · have places := held.places
      rw [split, List.map_append, List.map_cons] at places
      dsimp only at hx
      rw [erased] at hx
      have out : gone.place ∉ (before ++ after).map Entry.place := by
        rw [List.map_append]
        exact (List.nodup_middle.1 places).notMem
      exact out (isGone.1.trans same.symm ▸ List.mem_map_of_mem hx)
  unfold State.freeEntry
  rw [if_pos lives]
  exact arrived.setPort (by cases p <;> rfl)

theorem Move.keeps_workHeld (move : Move s u) (lawful : s.WorkLawful) : u.WorkHeld noEntry := by
  have held := lawful.held
  have pool := lawful.pooled.lawful
  have fresh := lawful.ordered.fresh
  have spentFresh (p : PortId) (r : Request) :
      ∀ e ∈ (s.spentBy p r).tracker, e.place ≠ (s.spentBy p r).nextPlace := by
    simpa [State.spentBy] using fresh
  cases move with
  | quiet same =>
    obtain ⟨queue, tracker, _, unit, _⟩ := State.fields_of_bare same
    refine held.congr tracker queue (State.memPort_slots_of_bare same).1 unit fun p => ?_
    obtain ⟨_, _, _, _, _, done, _⟩ := Port.fields_of_bare (State.port_of_bare same p)
    exact done
  | table t _ _ => exact held.congr rfl rfl rfl rfl fun p => by cases p <;> rfl
  | params new _ _ =>
    refine held.congr (by rw [State.replaceParams_eq]) (by rw [State.replaceParams_eq])
      (by rw [State.replaceParams_eq]) (by rw [State.replaceParams_eq]) fun p => ?_
    unfold State.replaceParams
    dsimp only
    split <;> cases p <;> rfl
  | powerOn => exact s.powerOnValues_blank.workHeld (Move.powerOn.keeps_idle lawful.idle)
  | warmReset => exact s.warmReset_blank.workHeld (Move.warmReset.keeps_idle lawful.idle)
  | configured _ _ _ _ _ _ _ _ => exact held.congr rfl rfl rfl rfl fun p => by cases p <;> rfl
  | linkUp p =>
    refine held.congr (by simp) (by simp) (by simp) (by simp) fun q => ?_
    rcases s.linkUp_port p q with same | ⟨_, up⟩
    · rw [same]
    · rw [up]
  | cut p state _ _ => exact held.cut pool p state
  | @readJoins p tag n a fields admitted horizon =>
    have joined := (held.spentBy p (.read tag a n)).join_settled
      (e := ⟨(s.spentBy p (.read tag a n)).nextPlace, p, tag, .read fields, .orderWait⟩)
      (spentFresh p _) trivial
    exact joined.weighReads
  | @doneJoins p r e status data admitted needs tag port place places =>
    have base : ((s.spentBy p r).owedBack p r).WorkHeld noEntry := by
      rw [State.owedBack_eq]
      exact (held.spentBy p r).setPort rfl
    have joined := base.addEntry (e := e) (by simpa [place] using fresh)
    exact (joined.finish (.inr place.symm) status data).none_left fun y loose =>
      (loose.resolve_left id).trans place
  | @attaches p tag n a i l fields admitted horizon line invalid =>
    have joined := (held.spentBy p (.read tag a n)).addEntry
      (e := ⟨(s.spentBy p (.read tag a n)).nextPlace, p, tag, .read fields, .attached⟩) (spentFresh p _)
    have found : ((s.spentBy p (.read tag a n)).addEntry ⟨(s.spentBy p (.read tag a n)).nextPlace, p, tag,
        .read fields, .attached⟩).readAhead.lines[i] = some l := by simpa using line
    have attached := joined.attach found (List.mem_append_right _ (List.mem_singleton_self _)) (.inr rfl) rfl rfl
    refine (attached.none_left fun y loose => loose.resolve_left id).congr rfl rfl rfl ?_ fun q => ?_
    · simp [State.spentBy]
    · cases q <;> rfl
  | @writeDropped p r admitted write posted =>
    exact (held.spentBy p r).setPort rfl
  | @writeJoins p ack tag n a data r admitted place port state ackTag link =>
    have base := held.spentBy p (.write ack tag a n data)
    have carries : s.readAhead.Carries (s.readAhead.struck r.line) := pool.carries_struck r.line
    rw [State.takePlace_eq]
    cases ack with
    | false =>
      have struck := base.setPool (ra := s.readAhead.struck r.line) (by simpa using carries)
      refine (struck.enqueue link).congr ?_ ?_ rfl rfl fun q => ?_
      · simp
      · simp
      · cases q <;> rfl
    | true =>
      have joined := base.addEntry (e := ⟨(s.spentBy p (.write true tag a n data)).nextPlace, p, tag, .ackedWrite,
        .queued⟩) (spentFresh p _)
      have struck := joined.setPool (ra := s.readAhead.struck r.line) (by simpa using carries)
      have queued := struck.enqueue_acked (r := r) (List.mem_append_right _ (List.mem_singleton_self _)) (.inr rfl)
        (by simpa [State.spentBy] using link) (by simpa [State.spentBy] using place)
        ⟨rfl, rfl, port.symm, ackTag⟩
      refine (queued.none_left fun y loose => loose.resolve_left id).congr ?_ ?_ rfl rfl fun q => ?_
      · simp
      · simp
      · cases q <;> rfl
  | @fenceJoins p tag scope purge f admitted waits horizon =>
    have joined := (held.spentBy p (.fence tag scope purge)).join_settled
      (e := ⟨(s.spentBy p (.fence tag scope purge)).nextPlace, p, tag, .fence f, .pending⟩)
      (spentFresh p _) ⟨waits, by simpa [State.queuedPlaces] using horizon⟩
    refine joined.congr ?_ rfl rfl rfl fun q => ?_
    · simp [State.spentBy]
    · cases q <;> rfl
  | granted free choice => exact lawful.granted free choice
  | @told i owner line d slot v _ busy slot_eq told weighed =>
    have idle : slot.isBusy = false := by
      rcases slot_eq with rfl | rfl <;> rfl
    have ends := told.workHeld lawful busy idle
    obtain ⟨_, rfl⟩ | rfl := weighed
    · exact ends
    · exact ends.weighReads
  | @reclaimed slots freed =>
    refine State.WorkHeld.weighReads (held.slots_idle fun i owner l d => ?_)
    rcases freed i with same | ⟨orphaned, free⟩
    · rw [same]
    · rw [free]
      refine iff_of_false (fun h => (nomatch h)) fun busy => ?_
      rw [busy] at orphaned
      cases orphaned
  | @headReady head rest t queue state =>
    exact held.head queue rfl rfl rfl rfl (held.slots.no_write queue (by rw [state]; exact fun h => (nomatch h)))
  | @readReady e t mem state =>
    obtain ⟨r, kind⟩ := ((held.entries e mem).resolve_left id).read_of_backoff state
    have loose := held.loosen mem (Claim.not_fits_waiting (.inr (.inr ⟨t, state⟩)))
    refine ((loose.rest (x := e.place) (.inr rfl) (fun x => ?_) (fun x other => if_neg other)
      fun x mem' same => ?_).none_left fun y loose => loose.resolve_left id).weighReads
    · split <;> rfl
    · rw [if_pos same]
      rw [held.entry_eq mem' mem same]
      simp only [State.Keeps, kind]
  | @lineReady i l t line state =>
    exact held.setPool (.change line (.of_some rfl fun on => by rw [state] at on; cases on))
  | pool unit => exact held.setPool (pool.carries_unitMove unit)
  | completionBegun p message _ => exact held.setPort rfl
  | @completionSent p message oldest rest link done =>
    have unlisted := held.unlist (x := { s.port p with link := .idle, done := rest }) done rfl
    obtain ⟨e, mem, named, fits⟩ := held.claimed (.list p) oldest (show oldest ∈ (s.port p).done by
      rw [done]
      exact List.mem_cons_self)
    exact unlisted.freeEntry (by simpa using mem) named fits.2
  | creditBegun p _ => exact held.setPort rfl
  | linkIdle p => exact held.setPort rfl

theorem Move.keeps_workLawful (move : Move s u) (lawful : s.WorkLawful) : u.WorkLawful where
  ordered := move.keeps_ordered lawful.ordered
  tail := move.keeps_tailQueued lawful.tail
  pooled := move.keeps_pooled lawful.pooled
  idle := move.keeps_idle lawful.idle
  held := move.keeps_workHeld lawful

end Moves

/-- Settles O59: every move keeps each piece of work in one place. An entry whose claim ends is in transit until it ends,
waits, or is claimed again, and no move leaves one there. -/
theorem stepKeepsWorkHeldOnce : Obligations.StepKeepsWorkHeldOnce :=
  stepKeeps_of_move _ State.workSound_iff Move.keeps_workLawful

end Sys2Proof.Machine
end

section
/-! SUPPORT. What a warm reset discards, and how the inputs move a port (O8, O9). -/

namespace Sys2Proof.Machine

/-! ## Warm reset -/

/-- The loss of a warm reset is appended when there is one (R164). -/
theorem State.logLoss_log (s : State) (queue : List WriteRecord) (tracker : List Entry) :
    (s.logLoss queue.length tracker.length).log = if queue = [] ∧ tracker = [] then s.log
      else s.log.append
        { time := s.startUp.counter, event := .warmResetLoss queue.length tracker.length } := by
  unfold State.logLoss
  simp only [List.length_eq_zero_iff]
  split <;> rfl

/-- A warm reset leaves all but the blocks that hold work (R191). -/
theorem State.warmReset_eq (s : State) : s.warmReset = { s with
    queue := s.warmReset.queue, tracker := s.warmReset.tracker, nextPlace := s.warmReset.nextPlace
    readAhead := s.warmReset.readAhead
    memPort := { s.warmReset.memPort with lastRequest := s.memPort.lastRequest }
    portA := s.warmReset.portA, portB := s.warmReset.portB, log := s.warmReset.log
    maint := s.warmReset.maint, quiesce := s.warmReset.quiesce } := by
  unfold State.warmReset State.logLoss
  split <;> rfl

/-- A frame in progress at a warm reset is ended (R169). -/
theorem Maintenance.warmReset_frame (m : Maintenance) :
    m.warmReset.frame = if m.frame = .idle then .idle else .spent := by
  unfold Maintenance.warmReset
  cases frame : m.frame <;> simp [frame]

theorem execWarmResetAssert_awake {s : State} (awake : s.awake) (released : s.pins.warmReset = false) :
    exec .warmResetAssert s = .next (s.setWarmInput true).warmReset.settle := by
  rw [exec_warmResetAssert, execWarmResetAssert, released]
  exact State.take_some _ _ awake

/-- Settles O8: the part is blank after the reset, its ports as cut off, and the loss is logged. -/
theorem warmResetDiscardsWork : Obligations.WarmResetDiscardsWork := by
  intro s awake released
  have blank := (s.setWarmInput true).warmReset_blank
  refine ⟨_, execWarmResetAssert_awake awake released, blank.queue, blank.tracker, ?_, blank.streams,
    blank.lines, blank.slots, ?_, fun p => ?_, ?_, ?_, ?_⟩
  · rw [State.warmReset, State.logLoss_quiesce]
  · rw [State.warmReset, State.logLoss_memPort]
  · rw [State.warmReset_port]
    cases p <;> rfl
  · rw [State.warmReset, State.logLoss_maint]
    exact s.maint.warmReset_frame
  · rw [State.warmReset]
    exact State.logLoss_log _ s.queue s.tracker
  · exact (s.setWarmInput true).warmReset_eq

/-! ## Port inputs -/

/-- The discard of a port's work and the state it leaves the port in. -/
theorem State.cutOff_eq (s : State) (p : PortId) (state : PortState) :
    s.cutOff p state = (s.discardPort p).setPort p { (s.discardPort p).port p with state := state } := by
  cases p <;> rfl

/-- A port goes DOWN with its work discarded, unless it is DOWN (R148). -/
theorem State.portDown_eq (s : State) (p : PortId) :
    s.portDown p = if (s.port p).state = .down then s else s.cutOff p .down := by
  have discarded : (s.setPort p { s.port p with state := .down }).discardPort p = s.cutOff p .down := by
    cases p <;> rfl
  unfold State.portDown
  split
  case _ h => rw [if_pos h]
  case _ h => rw [discarded, if_neg (by simp [h])]
  case _ h => rw [discarded, if_neg (by simp [h])]

/-- The level of the reset input plays no part in what a port loses. -/
theorem State.setResetInput_portDown (s : State) (p : PortId) (level : Bool) :
    (s.setResetInput p level).portDown p = (s.portDown p).setResetInput p level := by
  rw [State.portDown_eq, State.portDown_eq]
  by_cases down : (s.port p).state = .down
  · rw [if_pos (by simpa [State.setResetInput] using down), if_pos down]
  · rw [if_neg (by simpa [State.setResetInput] using down), if_neg down]
    cases p <;> rfl

/-- Nor does the level of the link ready input. -/
theorem State.setLinkReady_portDown (s : State) (p : PortId) (level : Bool) :
    (s.setLinkReady p level).portDown p = (s.portDown p).setLinkReady p level := by
  rw [State.portDown_eq, State.portDown_eq]
  by_cases down : (s.port p).state = .down
  · rw [if_pos (by simpa [State.setLinkReady] using down), if_pos down]
  · rw [if_neg (by simpa [State.setLinkReady] using down), if_neg down]
    cases p <;> rfl

/-- Link-up at a port, from its own values (R131). -/
theorem State.linkUp_eq (s : State) (p : PortId) :
    s.linkUp p = s.setPort p ((s.port p).comeUp s.isRunning s.pins.warmReset) := by
  have holds : s.linkUpHolds p = true ↔ s.isRunning = true ∧ s.pins.warmReset = false ∧
      (s.port p).resetInput = false ∧ (s.port p).linkReady = true := by
    simp [State.linkUpHolds, State.isRunning, and_assoc]
  unfold State.linkUp Port.comeUp
  simp only [holds]
  split
  · rfl
  · exact (State.setPort_port_self s p).symm

theorem State.setResetInput_linkUp (s : State) (p : PortId) (level : Bool) :
    (s.setResetInput p level).linkUp p =
      s.setPort p (({ s.port p with resetInput := level } : Port).comeUp s.isRunning s.pins.warmReset) := by
  rw [State.linkUp_eq]
  cases p <;> rfl

theorem State.setLinkReady_linkUp (s : State) (p : PortId) (level : Bool) :
    (s.setLinkReady p level).linkUp p =
      s.setPort p (({ s.port p with linkReady := level } : Port).comeUp s.isRunning s.pins.warmReset) := by
  rw [State.linkUp_eq]
  cases p <;> rfl

/-- Both ports go through link-up at the release of the warm reset (R131, R191). -/
theorem State.setWarmInput_linkUp (s : State) :
    ((s.setWarmInput false).linkUp .a).linkUp .b = { s with
      pins := { s.pins with warmReset := false }
      portA := s.portA.comeUp s.isRunning false, portB := s.portB.comeUp s.isRunning false } := by
  rw [State.linkUp_eq, State.linkUp_eq]
  rfl

/-- Settles O9: each input's effect commutes with its level, and link-up reads the port alone. -/
theorem portInputsMovePort : Obligations.PortInputsMovePort := by
  refine ⟨fun s p awake => ⟨fun released => ?_, fun ready => ?_⟩,
    fun s p awake => ⟨fun asserted => ?_, fun absent => ?_, fun asserted => ?_⟩⟩
  · rw [exec_portResetAssert, execPortResetAssert, released, State.setResetInput_portDown,
      State.portDown_eq]
    exact State.take_some _ _ ((congrArg Pins.powerOnReset (State.setPort_pins s p _)).trans awake)
  · rw [exec_linkReadyLoss, execLinkReadyLoss, ready, State.setLinkReady_portDown, State.portDown_eq]
    exact State.take_some _ _ ((congrArg Pins.powerOnReset (State.setPort_pins s p _)).trans awake)
  · rw [exec_portResetRelease, execPortResetRelease, asserted, State.setResetInput_linkUp]
    exact State.take_some _ _ ((congrArg Pins.powerOnReset (State.setPort_pins s p _)).trans awake)
  · rw [exec_linkReadyArrival, execLinkReadyArrival, absent, State.setLinkReady_linkUp]
    exact State.take_some _ _ ((congrArg Pins.powerOnReset (State.setPort_pins s p _)).trans awake)
  · rw [exec_warmResetRelease, execWarmResetRelease, asserted, State.setWarmInput_linkUp]
    exact State.take_some _ _ awake

end Sys2Proof.Machine
end

section
/-! SUPPORT. The arbiter: the candidates, its choice and the grant (O25, O26, O27). -/

namespace Sys2Proof.Machine

/-! ## Candidates -/

theorem Slot.holdsWrite_iff (slot : Slot) : slot.holdsWrite = true ↔
    (∃ place line d, slot = .busy (.write place) line d) ∨ ∃ line, slot = .orphaned .write line := by
  unfold Slot.holdsWrite
  split <;> simp_all

/-- Without a slot that holds a write the queue is not halted (R27, R34). -/
theorem MemPort.halted_of_no_write {m : MemPort} (none : ∀ i : SlotId, (m.slots[i]).holdsWrite = false) :
    m.halted = false := by
  have empty : m.orphanedWriteLines = [] := by
    refine List.eq_nil_iff_forall_not_mem.2 fun line mem => ?_
    obtain ⟨i, orphaned⟩ := (m.mem_orphanedWriteLines line).1 mem
    have holds := (Slot.holdsWrite_iff _).2 (.inr ⟨line, orphaned⟩)
    rw [none i] at holds
    cases holds
  rw [MemPort.halted, empty]
  rfl

theorem State.headCandidate_iff (s : State) (head : WriteRecord) : s.headCandidate = some head ↔
    (∃ rest, s.queue = head :: rest) ∧ head.state = .queued ∧
      ∀ i : SlotId, (s.memPort.slots[i]).holdsWrite = false := by
  refine ⟨State.headCandidate_some, fun ⟨⟨rest, queue⟩, queued, noWrite⟩ => ?_⟩
  unfold State.headCandidate
  rw [queue]
  exact if_pos ⟨queued, (MemPort.count_eq_zero _ _).2 noWrite, MemPort.halted_of_no_write noWrite⟩

/-- An entry with its fields when it is a READ in READY (R53). -/
def Entry.readyRead (x : Entry) : Option (Entry × ReadFields) :=
  match x.kind, x.state with
  | .read r, .ready => some (x, r)
  | _, _ => none

theorem State.demandCandidate_eq (s : State) : s.demandCandidate = s.tracker.findSome? Entry.readyRead := rfl

theorem Entry.readyRead_eq_some (x e : Entry) (r : ReadFields) :
    x.readyRead = some (e, r) ↔ x = e ∧ e.kind = .read r ∧ e.state = .ready := by
  unfold Entry.readyRead
  split
  · rename_i kind state
    simp only [Option.some.injEq, Prod.mk.injEq]
    constructor
    · rintro ⟨rfl, rfl⟩
      exact ⟨rfl, kind, state⟩
    · rintro ⟨rfl, kind', -⟩
      rw [kind] at kind'
      cases kind'
      exact ⟨rfl, rfl⟩
  · rename_i other
    constructor
    · intro h
      cases h
    · rintro ⟨rfl, kind, state⟩
      exact absurd state (other r kind)

theorem State.demandCandidate_iff (s : State) (e : Entry) (r : ReadFields) :
    s.demandCandidate = some (e, r) ↔
      ∃ before after, s.tracker = before ++ e :: after ∧ e.kind = .read r ∧ e.state = .ready ∧
        ∀ x ∈ before, ∀ y, ¬ (x.kind = .read y ∧ x.state = .ready) := by
  rw [State.demandCandidate_eq, List.findSome?_eq_some_iff]
  constructor
  · rintro ⟨before, x, after, tracker, found, earlier⟩
    obtain ⟨rfl, kind, ready⟩ := (x.readyRead_eq_some e r).1 found
    refine ⟨before, after, tracker, kind, ready, fun y mem fields isReady => ?_⟩
    have found := (y.readyRead_eq_some y fields).2 ⟨rfl, isReady⟩
    rw [earlier y mem] at found
    cases found
  · rintro ⟨before, after, tracker, kind, ready, earlier⟩
    refine ⟨before, e, after, tracker, (e.readyRead_eq_some e r).2 ⟨rfl, kind, ready⟩, fun x mem => ?_⟩
    refine Option.eq_none_iff_forall_ne_some.2 fun ⟨y, fields⟩ found => ?_
    obtain ⟨rfl, isReady⟩ := (x.readyRead_eq_some y fields).1 found
    exact earlier x mem fields isReady

/-- The fetch candidate is eligible and the earliest created among the eligible lines (R81). -/
theorem ReadAhead.candidate_some {ra : ReadAhead} {queue : List WriteRecord} {orphaned : List Addr} {i : LineId}
    (h : ra.candidate queue orphaned = some i) :
    ∃ l, ra.lines[i] = some l ∧ lineEligible queue orphaned l = true ∧
      ∀ (j : LineId) (m : Line), ra.lines[j] = some m → lineEligible queue orphaned m = true →
        l.order ≤ m.order := by
  obtain ⟨eligible, least⟩ := ReadAhead.earliest_some h
  obtain ⟨l, line, eligible⟩ := ReadAhead.lineIs_true.1 eligible
  refine ⟨l, line, eligible, fun j m line' eligible' => ?_⟩
  have le := least j (ReadAhead.lineIs_true.2 ⟨m, line', eligible'⟩)
  rwa [ReadAhead.orderOfLine_of_some line, ReadAhead.orderOfLine_of_some line'] at le

theorem ReadAhead.candidate_none (ra : ReadAhead) (queue : List WriteRecord) (orphaned : List Addr) :
    ra.candidate queue orphaned = none ↔
      ∀ (j : LineId) (m : Line), ra.lines[j] = some m → lineEligible queue orphaned m = false := by
  rw [ReadAhead.candidate, ReadAhead.earliest_none]
  refine forall_congr' fun j => ?_
  rw [← Bool.not_eq_true, ReadAhead.lineIs_true]
  exact ⟨fun no m line => Bool.eq_false_iff.2 fun eligible => no ⟨m, line, eligible⟩,
    fun no ⟨m, line, eligible⟩ => Bool.false_ne_true ((no m line).symm.trans eligible)⟩

/-! ## Eligibility -/

theorem relaxedHolds_iff (queue : List WriteRecord) (m : MemPort) (horizon : List Nat) (line : Addr) :
    relaxedHolds queue m.orphanedWriteLines horizon line = true ↔
      (∀ w ∈ queue, w.place ∈ horizon → w.line ≠ line) ∧
        ∀ (i : SlotId) (a : Addr), m.slots[i] = .orphaned .write a → a ≠ line := by
  have orphaned : line ∉ m.orphanedWriteLines ↔
      ∀ (i : SlotId) (a : Addr), m.slots[i] = .orphaned .write a → a ≠ line := by
    rw [MemPort.mem_orphanedWriteLines, not_exists]
    exact ⟨fun h i a slot same => h i (same ▸ slot), fun h i slot => h i line slot rfl⟩
  rw [← orphaned]
  simp [relaxedHolds]

theorem strictHolds_iff (queue : List WriteRecord) (horizon : List Nat) (p : PortId) :
    strictHolds queue horizon p = true ↔ ∀ w ∈ queue, w.place ∈ horizon → w.port ≠ p := by
  simp [strictHolds]

theorem lineEligible_iff (queue : List WriteRecord) (m : MemPort) (l : Line) :
    lineEligible queue m.orphanedWriteLines l = true ↔ l.state = .pending none ∧
      (∀ w ∈ queue, w.place ∈ l.horizon → w.line ≠ l.target) ∧
        ∀ (i : SlotId) (a : Addr), m.slots[i] = .orphaned .write a → a ≠ l.target := by
  rw [lineEligible, Bool.and_eq_true, decide_eq_true_iff, relaxedHolds_iff]

theorem readEligible_iff (queue : List WriteRecord) (m : MemPort) (p : PortId) (r : ReadFields) :
    readEligible queue m.orphanedWriteLines p r = true ↔
      (∀ w ∈ queue, w.place ∈ r.horizon → w.line ≠ r.line) ∧
        (∀ (i : SlotId) (a : Addr), m.slots[i] = .orphaned .write a → a ≠ r.line) ∧
          (r.order = .strict → ∀ w ∈ queue, w.place ∈ r.horizon → w.port ≠ p) := by
  have order : r.order = .relaxed ∨ strictHolds queue r.horizon p = true ↔
      (r.order = .strict → ∀ w ∈ queue, w.place ∈ r.horizon → w.port ≠ p) := by
    rw [strictHolds_iff]
    cases r.order <;> simp
  rw [readEligible, Bool.and_eq_true, relaxedHolds_iff, Bool.or_eq_true, decide_eq_true_iff, order,
    and_assoc]

/-- Weighing, by the kind of the entry (R51, R52). -/
theorem weighEntry_eq (queue : List WriteRecord) (orphaned : List Addr) (e : Entry) :
    weighEntry queue orphaned e = (match e.kind with
      | .read r =>
        if e.state = .orderWait ∨ e.state = .ready then
          { e with state := if readEligible queue orphaned e.port r then .ready else .orderWait }
        else e
      | .ackedWrite => e
      | .fence _ => e) := by
  obtain ⟨place, port, tag, kind, state⟩ := e
  unfold weighEntry
  cases kind with
  | ackedWrite => rfl
  | fence f => rfl
  | read r =>
    by_cases waits : state = .orderWait
    · rw [waits]
      dsimp only
      rw [if_pos (Or.inl rfl : EntryState.orderWait = .orderWait ∨ EntryState.orderWait = .ready)]
      split <;> rfl
    · by_cases ready : state = .ready
      · rw [ready]
        dsimp only
        rw [if_pos (Or.inr rfl : EntryState.ready = .orderWait ∨ EntryState.ready = .ready)]
        split <;> rfl
      · dsimp only
        rw [if_neg (fun h => h.elim waits ready)]
        split
        · contradiction
        · contradiction
        · rfl

/-- Settles O25: each candidate is the first or the least of those that its block may present. -/
theorem candidatesPresented : Obligations.CandidatesPresented := fun s =>
  ⟨s.headCandidate_iff, s.demandCandidate_iff, fun _ => ReadAhead.candidate_some,
    ReadAhead.candidate_none _ _ _, lineEligible_iff _ _, readEligible_iff _ _, weighEntry_eq _ _⟩

/-! ## The choice -/

section
variable {s : State}

theorem State.chooseGrant_head {head : WriteRecord} (candidate : s.headCandidate = some head)
    (first : s.startUp.params.highWater ≤ s.queue.length ∨ s.memPort.passedOver = 4 ∨ s.demandCandidate = none) :
    s.chooseGrant = some (.write head) := by
  unfold State.chooseGrant
  rw [candidate]
  cases demand : s.demandCandidate with
  | none => rfl
  | some x =>
    refine if_pos ?_
    rcases first with high | most | noRead
    · exact .inl (decide_eq_true high)
    · exact .inr (Nat.le_of_eq most.symm)
    · rw [demand] at noRead
      cases noRead

theorem State.chooseGrant_passes {head : WriteRecord} (candidate : s.headCandidate = some head)
    (low : s.queue.length < s.startUp.params.highWater) (few : s.memPort.passedOver < 4) {e : Entry}
    {r : ReadFields} (demand : s.demandCandidate = some (e, r)) : s.chooseGrant = some (.demand e r) := by
  unfold State.chooseGrant
  rw [candidate, demand]
  refine if_neg (not_or.2 ⟨?_, Nat.not_le.2 few⟩)
  rw [State.highWater, decide_eq_true_iff]
  exact Nat.not_le.2 low

theorem State.chooseGrant_read (none : s.headCandidate = none) {e : Entry} {r : ReadFields}
    (demand : s.demandCandidate = some (e, r)) : s.chooseGrant = some (.demand e r) := by
  unfold State.chooseGrant
  rw [none, demand]

theorem State.chooseGrant_last (head : s.headCandidate = none) (demand : s.demandCandidate = none) :
    s.chooseGrant = s.fetchGrantable.map .fetch := by
  unfold State.chooseGrant
  rw [head, demand]

end

/-- Settles O26: the head record first when it must be, then a read, then a fetch with a slot to spare. -/
theorem arbiterChoosesInOrder : Obligations.ArbiterChoosesInOrder := by
  refine ⟨fun s => ⟨fun head candidate => ⟨fun high => State.chooseGrant_head candidate (.inl high),
    fun most => State.chooseGrant_head candidate (.inr (.inl most)),
    fun low few _ _ => State.chooseGrant_passes candidate low few,
    fun none => State.chooseGrant_head candidate (.inr (.inr none))⟩, fun head =>
    ⟨fun _ _ => State.chooseGrant_read head, fun demand => ⟨fun two => ?_, fun one => ?_⟩⟩⟩,
    fun slot => ⟨?_, ?_, ?_, slot.holdsWrite_iff⟩, fun m f => m.count_eq f⟩
  · rw [State.chooseGrant_last head demand, State.fetchGrantable, if_pos two]
  · rw [State.chooseGrant_last head demand, State.fetchGrantable, if_neg (Nat.not_le.2 one)]
    rfl
  · cases slot <;> simp [Slot.isFree]
  · cases slot <;> simp [Slot.isBusy]
  · cases slot <;> simp [Slot.isOrphaned]

/-! ## The grant -/

/-- The lowest FREE slot, by what the slots hold (R109). -/
theorem MemPort.lowestFree_eq {m : MemPort} {i : SlotId} (free : m.slots[i] = .free)
    (lowest : ∀ j : SlotId, j < i → m.slots[j] ≠ .free) : m.lowestFree = some i := by
  refine find?_eq_lowest allSlots _ i (mem_allSlots i) (by decide) (by rw [free]; rfl) fun j less => ?_
  have other := lowest j less
  cases slot : m.slots[j] with
  | free => exact absurd slot other
  | busy _ _ _ => rfl
  | orphaned _ _ => rfl

theorem MemPort.lowestFree_none {m : MemPort} (full : ∀ i : SlotId, m.slots[i] ≠ .free) :
    m.lowestFree = none := by
  refine List.find?_eq_none.2 fun i _ isFree => full i ?_
  unfold Slot.isFree at isFree
  split at isFree
  · assumption
  · cases isFree

theorem State.passedOverAfter_demand (s : State) (e : Entry) (r : ReadFields) :
    s.passedOverAfter (.demand e r) = s.memPort.passedOver + (if s.headCandidate.isSome then 1 else 0) := by
  unfold State.passedOverAfter
  dsimp only
  split <;> rfl

theorem ReadAhead.issue_of_some {ra : ReadAhead} {i : LineId} {l : Line} (line : ra.lines[i] = some l) :
    ra.issue i = ra.setLine i (some { l with state := .fetching }) := by
  rw [ReadAhead.issue, line]

theorem ReadAhead.targetOf_of_some {ra : ReadAhead} {i : LineId} {l : Line} (line : ra.lines[i] = some l) :
    ra.targetOf i = l.target := by
  rw [ReadAhead.targetOf, line]

theorem exec_grant_awake {s : State} (awake : s.awake) {i : SlotId} {g : Grant}
    (free : s.memPort.lowestFree = some i) (choice : s.chooseGrant = some g) :
    exec .grant s = .next (s.grantTo i g).settle := by
  rw [exec_grant, execGrant, State.grant, free, choice]
  exact State.take_some _ _ awake

theorem exec_grant_none {s : State} (none : s.memPort.lowestFree = none ∨ s.chooseGrant = none) :
    exec .grant s = .next s := by
  have no : s.grant = Option.none := by
    unfold State.grant
    rcases none with none | none
    · rw [none]
    · rw [none]
      cases s.memPort.lowestFree <;> rfl
  rw [exec_grant, execGrant, no, State.take_none]

/-- Settles O27: the lowest FREE slot goes to the arbiter's choice, whose block issues it. -/
theorem grantFillsLowestFreeSlot : Obligations.GrantFillsLowestFreeSlot := by
  refine ⟨fun s awake nothing => exec_grant_none (nothing.imp_left MemPort.lowestFree_none), by decide,
    fun s i awake free lowest => ⟨fun head rest choice queue => ?_, fun e r choice => ?_,
      fun k l choice line => ?_⟩⟩
  all_goals rw [exec_grant_awake awake (MemPort.lowestFree_eq free lowest) choice]
  · rw [State.grantTo_write queue]
    rfl
  · rw [State.grantTo_demand, State.grantedPort, State.passedOverAfter_demand]
    rfl
  · rw [State.grantTo_fetch, ReadAhead.issue_of_some line, State.grantedPort, State.grantParts,
      ReadAhead.targetOf_of_some line]
    rfl

end Sys2Proof.Machine
end

section
/-! SUPPORT. Timed ends and the reclaim of slots (O35, O49). -/

namespace Sys2Proof.Machine

/-! ## Timed ends -/

/-- Under `tagsUnique` an entry is found by its port and tag. -/
theorem State.entryTagged_of_mem {s : State} {e : Entry} (unique : s.tagsUnique = true) (mem : e ∈ s.tracker) :
    s.entryTagged e.port e.tag = some e := by
  rw [State.tagsUnique, decide_eq_true_iff] at unique
  cases found : s.entryTagged e.port e.tag with
  | none => exact absurd (decide_eq_true ⟨rfl, rfl⟩) (List.find?_eq_none.1 found e mem)
  | some x =>
    have holds := List.find?_some found
    obtain ⟨port, tag⟩ : x.port = e.port ∧ x.tag = e.tag := by simpa using holds
    rw [List.inj_on_of_nodup_map unique (List.mem_of_find?_eq_some found) mem (by rw [port, tag])]

section
variable {s : State} {d : Timer}

theorem State.writeBackoffEnd_backoff {head : WriteRecord} {rest : List WriteRecord}
    (queue : s.queue = head :: rest) (waits : head.state = .backoff d) :
    s.writeBackoffEnd = if d.reached s.startUp.counter then
      some { s with queue := { head with state := .queued } :: rest } else none := by
  unfold State.writeBackoffEnd
  simp only [queue, waits]

theorem State.fetchBackoffEnd_backoff {i : LineId} {l : Line} (line : s.readAhead.lines[i] = some l)
    (waits : l.state = .pending (some d)) :
    s.fetchBackoffEnd i = if d.reached s.startUp.counter then
      some { s with readAhead := s.readAhead.setLine i (some { l with state := .pending none }) } else none := by
  unfold State.fetchBackoffEnd
  simp only [line, waits]

theorem State.readBackoffEnd_backoff {e : Entry} (unique : s.tagsUnique = true) (mem : e ∈ s.tracker)
    (waits : e.state = .backoff d) :
    s.readBackoffEnd e.port e.tag = if d.reached s.startUp.counter then
      some { s with tracker := setEntryState s.tracker e.place .orderWait }.weighReads else none := by
  unfold State.readBackoffEnd
  simp only [State.entryTagged_of_mem unique mem, waits]

/-- With the other entries weighed, a read that waits for order again is the one entry that changes. -/
theorem State.weighReads_orderWait {e : Entry} {q : ReadFields} (sound : s.readsWeighed = true)
    (mem : e ∈ s.tracker) (kind : e.kind = .read q) :
    { s with tracker := setEntryState s.tracker e.place .orderWait }.weighReads = { s with
      tracker := s.tracker.map fun x => if x.place = e.place then
        { e with state := if readEligible s.queue s.memPort.orphanedWriteLines e.port q then .ready
          else .orderWait } else x } := by
  obtain ⟨ordered, weighed⟩ := s.readsWeighed_iff.1 sound
  refine congrArg (fun tracker => { s with tracker := tracker }) ?_
  rw [setEntryState, List.map_map]
  refine List.map_congr_left fun x member => ?_
  rw [Function.comp_apply]
  split
  · rename_i same
    obtain rfl : x = e := List.inj_on_of_nodup_map (ordered.tracker.imp Nat.ne_of_lt) member mem same
    rw [weighEntry_eq]
    simp only [kind]
    rfl
  · exact weighed x member

theorem State.idleExpiry_active {k : StreamId} {st : Stream} (stream : s.readAhead.streams[k] = some st) :
    s.idleExpiry k = if st.expired s.startUp.counter s.startUp.params.idle then
      some { s with readAhead := (s.readAhead.retire k).topUp s.fetchEnv } else none := by
  unfold State.idleExpiry
  simp only [stream]

/-- An event that happens at its time is taken then, and not before. -/
theorem State.take_ite {t : State} {due : Bool} (awake : s.awake) :
    (due = true → s.take (if due then some t else none) = .next t.settle) ∧
      (¬ due = true → s.take (if due then some t else none) = .next s) := by
  refine ⟨fun now => ?_, fun early => ?_⟩
  · rw [if_pos now]
    exact State.take_some _ _ awake
  · rw [if_neg early, State.take_none]

end

/-- Settles O35: each end is guarded by its own time, and the sound tracker has one entry with the tag. -/
theorem timedEndsActAtTheirTime : Obligations.TimedEndsActAtTheirTime := by
  refine ⟨fun s d awake => ⟨fun head rest queue waits => ?_, fun e q mem unique sound kind waits => ?_,
    fun i l line waits => ?_⟩, fun s k st awake stream => ?_⟩
  · rw [exec_writeBackoffEnd, execWriteBackoffEnd, State.writeBackoffEnd_backoff queue waits,
      ← Timer.reached_iff]
    exact State.take_ite awake
  · rw [exec_readBackoffEnd, execReadBackoffEnd, State.readBackoffEnd_backoff unique mem waits,
      State.weighReads_orderWait sound mem kind, ← Timer.reached_iff]
    exact State.take_ite awake
  · rw [exec_fetchBackoffEnd, execFetchBackoffEnd, State.fetchBackoffEnd_backoff line waits,
      ← Timer.reached_iff]
    exact State.take_ite awake
  · rw [exec_idleExpiry, execIdleExpiry, State.idleExpiry_active stream]
    obtain ⟨now, early⟩ := State.take_ite (s := s) (due := st.expired s.startUp.counter s.startUp.params.idle)
      (t := { s with readAhead := (s.readAhead.retire k).topUp s.fetchEnv }) awake
    exact ⟨fun due => now (decide_eq_true due), fun less => early fun due =>
      absurd (of_decide_eq_true due) (Nat.not_le.2 less)⟩

/-! ## Reclaim -/

theorem Slot.reclaimed_eq (slot : Slot) : slot.reclaimed = (match slot with
    | .orphaned _ _ => .free
    | slot => slot) := by
  cases slot <;> rfl

/-- The slots after RECLAIM_SLOTS (R126). -/
def MemPort.reclaimed (m : MemPort) : MemPort :=
  { m with slots := mapVec Slot.reclaimed m.slots }

theorem MemPort.reclaimed_slot (m : MemPort) (i : SlotId) :
    m.reclaimed.slots[i] = (m.slots[i]).reclaimed := mapVec_getElem_fin _ _ _

/-- No ORPHANED slot is left, so none holds back a read (R52, R126). -/
theorem MemPort.reclaimed_orphanedWriteLines (m : MemPort) : m.reclaimed.orphanedWriteLines = [] := by
  refine List.eq_nil_iff_forall_not_mem.2 fun line mem => ?_
  obtain ⟨i, orphaned⟩ := (MemPort.mem_orphanedWriteLines _ line).1 mem
  rw [MemPort.reclaimed_slot, Slot.reclaimed] at orphaned
  split at orphaned
  · cases orphaned
  · rename_i kept
    exact kept (congrArg Slot.isOrphaned orphaned)

/-- The log after RECLAIM_SLOTS (R126). -/
def State.reclaimLog (s : State) : ErrorLog :=
  if s.memPort.count Slot.isOrphaned = 0 then s.log
  else s.log.append
    { time := s.startUp.counter, event := .slotReclaimed (s.memPort.count Slot.isOrphaned) }

theorem State.reclaimSlots_eq (s : State) : s.reclaimSlots.1 = { s with
    memPort := s.memPort.reclaimed, tracker := s.tracker.map (weighEntry s.queue []), log := s.reclaimLog } := by
  have lines := s.memPort.reclaimed_orphanedWriteLines
  rw [← lines]
  unfold State.reclaimSlots State.reclaimLog
  by_cases zero : s.memPort.count Slot.isOrphaned = 0
  · dsimp only
    rw [if_pos zero, if_neg (zero ▸ Nat.lt_irrefl 0)]
    rfl
  · dsimp only
    rw [if_neg zero, if_pos (Nat.pos_of_ne_zero zero)]
    rfl

/-- Settles O49: RECLAIM_SLOTS leaves the reclaimed port, its log record and the reads weighed. -/
theorem reclaimFreesOrphanedSlots : Obligations.ReclaimFreesOrphanedSlots := by
  intro s serving
  refine ⟨s.reclaimSlots.1, ?_, fun i => ?_, ?_, ?_, ?_, ?_⟩
  · rw [exec_reclaimSlots, execReclaimSlots, State.takeCommand_serving serving]
    rfl
  all_goals rw [State.reclaimSlots_eq]
  · exact (MemPort.reclaimed_slot _ i).trans (Slot.reclaimed_eq _)
  · rw [MemPort.halted, MemPort.reclaimed_orphanedWriteLines]
    rfl
  · rfl
  · rfl

end Sys2Proof.Machine
end

section
/-! SUPPORT. How arriving messages are read, parity and the check word (O40). -/

namespace Sys2Proof.Machine

/-! ## Parity -/

/-- A running exclusive or says whether the count of those that hold is odd. -/
theorem foldl_xor_eq {α : Type} (f : α → Bool) (xs : List α) (start : Bool) :
    xs.foldl (fun acc x => acc ^^ f x) start = (start ^^ decide (xs.countP f % 2 = 1)) := by
  induction xs generalizing start with
  | nil => simp
  | cons x xs ih =>
    rw [List.foldl_cons, ih, List.countP_cons, Bool.xor_assoc]
    congr 1
    cases f x with
    | false => rw [Bool.false_xor, if_neg Bool.false_ne_true, Nat.add_zero]
    | true =>
      rw [Bool.true_xor, if_pos rfl, ← decide_not, decide_eq_decide]
      omega

theorem oddOnes_iff (b : Byte) :
    oddOnes b = true ↔ (List.range 8).countP (fun i => b.getLsbD i) % 2 = 1 := by
  rw [oddOnes, foldl_xor_eq, Bool.false_xor, decide_eq_true_iff]

/-- The parity bit makes the count over nine bits odd (R196). -/
theorem goodParity_iff (b : LinkByte) : goodParity b = true ↔
    ((List.range 8).countP (fun i => b.data.getLsbD i) + (if b.parity then 1 else 0)) % 2 = 1 := by
  have odd := oddOnes_iff b.data
  rw [goodParity, parityOf, beq_iff_eq]
  cases parity : b.parity with
  | false =>
    rw [if_neg Bool.false_ne_true, Nat.add_zero, ← odd]
    cases oddOnes b.data <;> decide
  | true =>
    rw [if_pos rfl, eq_comm, Bool.not_eq_true', ← Bool.not_eq_true, odd]
    omega

theorem goodParity_withParity (b : Byte) : goodParity (withParity b) = true := beq_self_eq_true _

/-! ## The check word -/

/-- The check word takes one byte more, most significant bit first (R196). -/
theorem checkWord_append (bytes : List Byte) (b : Byte) : checkWord (bytes ++ [b]) =
    (List.range 8).foldl (fun (reg : BitVec 16) i =>
      if reg.getLsbD 15 = b.getLsbD (7 - i) then reg <<< 1 else (reg <<< 1) ^^^ 0x1021) (checkWord bytes) := by
  have bit (reg : BitVec 16) (i : Nat) : crcBit reg (b.getLsbD (7 - i)) =
      if reg.getLsbD 15 = b.getLsbD (7 - i) then reg <<< 1 else (reg <<< 1) ^^^ 0x1021 := by
    unfold crcBit
    simp only [bne_iff_ne, ne_eq, ite_not]
  rw [checkWord, List.foldl_append]
  simp only [← bit]
  rfl

/-! ## Requests -/

/-- The kind byte chooses the reading (R194). -/
theorem parseRequest_kind (kind : LinkByte) (rest : List LinkByte) :
    (kind.data = 1 → parseRequest (kind :: rest) = parseRead rest) ∧
    (kind.data = 2 → parseRequest (kind :: rest) = parseWrite rest) ∧
    (kind.data = 3 → parseRequest (kind :: rest) = parseFence rest) ∧
    (kind.data ≠ 1 → kind.data ≠ 2 → kind.data ≠ 3 → parseRequest (kind :: rest) = .unknown) := by
  unfold parseRequest
  dsimp only
  refine ⟨fun one => ?_, fun two => ?_, fun three => ?_, fun one two three => ?_⟩
  · rw [if_pos one]
  · rw [two, if_neg (by decide), if_pos rfl]
  · rw [three, if_neg (by decide), if_neg (by decide), if_pos rfl]
  · rw [if_neg one, if_neg two, if_neg three]

/-! ## Responses -/

theorem respKindOf_eq (b : Byte) :
    (b.toNat % 4 = 0 → respKindOf b = .ok) ∧ (b.toNat % 4 = 1 → respKindOf b = .okPoison) ∧
    (b.toNat % 4 = 2 → respKindOf b = .wait) ∧ (b.toNat % 4 = 3 → respKindOf b = .fault) := by
  unfold respKindOf
  refine ⟨fun h => ?_, fun h => ?_, fun h => ?_, fun h => ?_⟩ <;> simp only [h]

/-- A response carries data when its data bit is set and its 64 data bytes arrived (R195). -/
theorem parseResponse_data (message : List Byte) : (parseResponse message).data =
    if (byteAt message 3).getLsbD 0 = true ∧ 68 ≤ message.length then
      some (vecOf 64 fun p => byteAt message (4 + p)) else none := by
  unfold parseResponse
  simp only [Bool.and_eq_true, decide_eq_true_eq]

/-- An OK or OK_POISON without data is taken as FAULT (R111). -/
theorem Response.effective_eq (r : Response) :
    (r.data = none → r.kind = .ok ∨ r.kind = .okPoison → r.effective = .fault) ∧
    (r.data ≠ none ∨ r.kind = .wait ∨ r.kind = .fault → r.effective = r.kind) := by
  unfold Response.effective
  constructor
  · rintro absent (told | told) <;> rw [absent, told]
  · rintro (present | told | told)
    · obtain ⟨data, h⟩ := Option.ne_none_iff_exists'.1 present
      rw [h]
      split
      · contradiction
      · contradiction
      · rfl
    · rw [told]
    · rw [told]

/-- Settles O40: the fields are read at their positions, and the check word byte by byte. -/
theorem messagesReadByPosition : Obligations.MessagesReadByPosition := by
  refine ⟨fun kind rest => ⟨rfl, rfl, rfl, parseRequest_kind kind rest⟩, rfl, fun message => ?_,
    Response.effective_eq, goodParity_iff, goodParity_withParity, by decide, by decide, by decide, rfl,
    checkWord_append, by decide +kernel⟩
  obtain ⟨ok, poison, wait, fault⟩ := respKindOf_eq (byteAt message 2)
  refine ⟨rfl, ok, poison, wait, fault, fun bit whole => ?_, fun absent => ?_⟩
  · exact ⟨_, (parseResponse_data message).trans (if_pos ⟨bit, whole⟩), fun k => vecOf_getElem_fin _ _ k⟩
  · refine (parseResponse_data message).trans (if_neg fun ⟨bit, whole⟩ => ?_)
    rcases absent with unset | short
    · exact Bool.false_ne_true (unset.symm.trans bit)
    · exact absurd whole (Nat.not_le.2 short)

end Sys2Proof.Machine
end

section
/-! SUPPORT. The deadline of a slot and the late response (O34). -/

namespace Sys2Proof.Machine

/-! ## A failed fetch -/

section Fetch
variable {s : State} {i : LineId} {l : Line}

/-- What a failed fetch of a line is made of (R85). -/
theorem State.fetchFails_eq (line : s.readAhead.lines[i] = some l) (cause : MemCause) :
    s.fetchFails i cause = { l.attached.foldl (State.finish · · cause.status []) s with
      readAhead := ((s.readAhead.retireOwner l).setLine i none).topUp s.fetchEnv } := by
  have pool : (l.attached.foldl (State.finish · · cause.status []) s).readAhead = s.readAhead :=
    foldl_keeps _ State.readAhead (fun _ _ => by simp) _ _
  have env : (l.attached.foldl (State.finish · · cause.status []) s).fetchEnv = s.fetchEnv :=
    foldl_keeps _ State.fetchEnv (fun _ _ => by simp [State.fetchEnv]) _ _
  unfold State.fetchFails State.failAttached ReadAhead.fetchFailed
  dsimp only
  rw [ReadAhead.attachedTo_of_some line, env, pool, line]

/-- Entries that become DONE leave the part but for the tracker and the lists of the ports (R63). -/
theorem State.foldl_finish_frame (places : List Nat) (status : Status) (s : State) :
    places.foldl (State.finish · · status []) s = { s with
      tracker := (places.foldl (State.finish · · status []) s).tracker
      portA := { s.portA with done := (places.foldl (State.finish · · status []) s).portA.done }
      portB := { s.portB with done := (places.foldl (State.finish · · status []) s).portB.done } } := by
  have ports := State.onlyDone_foldl (State.finish · · status []) (fun t x => t.onlyDone_finish x status []) places s
  have keeps {γ : Type} (g : State → γ) (kept : ∀ t x, g (State.finish t x status []) = g t) :
      g (places.foldl (State.finish · · status []) s) = g s := foldl_keeps _ g kept places s
  exact State.eq_of_fields (keeps _ fun _ _ => by simp) (keeps _ fun _ _ => by simp) (keeps _ fun _ _ => by simp)
    (keeps _ fun _ _ => by simp) rfl (keeps _ fun _ _ => by simp) (keeps _ fun _ _ => by simp)
    (keeps _ fun _ _ => by simp) (ports .a) (ports .b) (keeps _ fun _ _ => by simp) (keeps _ fun _ _ => by simp)
    (keeps _ fun _ _ => by simp) (keeps _ fun _ _ => by simp) (keeps _ fun _ _ => by simp)
    (keeps _ fun _ _ => by simp)

/-- A fetch that fails in the state its slot has become has the effects of R85. -/
theorem State.fetchFails_fetchFailure (line : s.readAhead.lines[i] = some l) (nodup : l.attached.Nodup)
    (m : MemPort) (cause : MemCause) :
    s.fetchFailure { s with memPort := m } (State.fetchFails { s with memPort := m } i cause) i l cause.status := by
  have tracker := State.foldl_finish_tracker l.attached cause.status { s with memPort := m }
  have named : (l.attached.map fun place => (place, EntryState.done cause.status [])).map Prod.fst = l.attached := by
    rw [List.map_map]
    exact List.map_id _
  rw [State.fetchFails_eq (s := { s with memPort := m }) line]
  refine ⟨fun p => ?_, fun e mem attached => ?_, fun e mem other => ?_, ?_, ?_⟩
  · exact State.foldl_finish_done l.attached cause.status { s with memPort := m } p
  · refine tracker ▸ foldl_setEntryState_sets _ _ e mem _ (List.mem_map.2 ⟨_, attached, rfl⟩) ?_
    rwa [named]
  · refine tracker ▸ foldl_setEntryState_keeps _ _ e mem ?_
    rwa [named]
  · change ((s.readAhead.retireOwner l).setLine i none).topUp s.fetchEnv = _
    unfold ReadAhead.retireOwner
    cases l.owner <;> rfl
  · exact congrArg (fun u : State => { u with
      readAhead := ((s.readAhead.retireOwner l).setLine i none).topUp s.fetchEnv })
      (State.foldl_finish_frame l.attached cause.status { s with memPort := m })

end Fetch

/-! ## The deadline -/

section Deadline
variable {s : State} {i : SlotId} {owner : SlotOwner} {line : Addr} {d : Timer}

/-- A BUSY slot at its deadline becomes ORPHANED and its owner is told TIMEOUT (R117). -/
theorem State.slotDeadline_busy (busy : s.memPort.slots[i] = .busy owner line d) :
    s.slotDeadline i = if d.reached s.startUp.counter then
      some (((s.setSlot i (.orphaned owner.kind line)).tellTimeout owner).weighReads) else none := by
  unfold State.slotDeadline
  rw [busy]

theorem exec_slotDeadline_due (awake : s.awake) (busy : s.memPort.slots[i] = .busy owner line d)
    (due : d.span.toNat ≤ (s.startUp.counter - d.start).toNat) : exec (.slotDeadline i) s =
      .next (((s.setSlot i (.orphaned owner.kind line)).tellTimeout owner).weighReads).settle := by
  rw [exec_slotDeadline, execSlotDeadline, State.slotDeadline_busy busy]
  exact (State.take_ite awake).1 ((Timer.reached_iff _ _).2 due)

theorem exec_slotDeadline_early (awake : s.awake) (busy : s.memPort.slots[i] = .busy owner line d)
    (early : (s.startUp.counter - d.start).toNat < d.span.toNat) : exec (.slotDeadline i) s = .next s := by
  rw [exec_slotDeadline, execSlotDeadline, State.slotDeadline_busy busy]
  exact (State.take_ite awake).2 fun due => absurd ((Timer.reached_iff _ _).1 due) (Nat.not_le.2 early)

end Deadline

/-- The head record is told TIMEOUT (R33). -/
theorem State.tellTimeout_head {s : State} {head : WriteRecord} {rest : List WriteRecord}
    (queue : s.queue = head :: rest) :
    s.tellTimeout (.write head.place) = s.headFailure head rest .timeout := by
  rw [State.tellTimeout, State.writeTimesOut, queue, ← State.headFails_eq]
  exact if_pos rfl

/-- A late response frees its slot, and the reads it held back are weighed (R114). -/
theorem State.respond_orphaned {s : State} {r : Response} {kind : SlotKind} {line : Addr}
    (orphaned : s.memPort.slots[r.slot] = .orphaned kind line) :
    s.respond r = ((s.logEvent (.lateResponse r.slot kind line r.kind)).setSlot r.slot .free).weighReads := by
  unfold State.respond
  rw [orphaned]

/-- Settles O34: at the deadline the owner is told TIMEOUT in the state whose slot is ORPHANED. -/
theorem deadlineOrphansSlot : Obligations.DeadlineOrphansSlot := by
  refine ⟨fun s i owner line d awake busy => ⟨exec_slotDeadline_early awake busy, fun due => ?_⟩,
    fun s message kind line awake => ?_⟩
  · rw [exec_slotDeadline_due awake busy due]
    refine ⟨fun head rest own queue => ?_, fun e mem sound own => ?_, fun own => ?_, fun k l own found sound => ?_⟩
    · rw [own, State.tellTimeout_head (s := s.setSlot i _) queue]
      rfl
    · have found : (s.setSlot i (.orphaned .demand line)).entryAt e.place = some e :=
        State.entryAt_of_orderSound sound mem
      rw [own, ← State.finish_eq_endsAs found]
      rfl
    · rw [own]
      rfl
    · have nodup := (s.workSound_iff.1 sound).held.attached.nodup k
      rw [ReadAhead.attachedTo_of_some found] at nodup
      rw [own]
      exact ⟨_, rfl, State.fetchFails_fetchFailure found nodup _ .timeout⟩
  · intro r orphaned
    rw [exec_response_awake message awake, State.respond_orphaned orphaned]
    rfl

end Sys2Proof.Machine
end

section
/-! SUPPORT. What the departures of one event report to the tracker and the pool (O31). -/

namespace Sys2Proof.Machine

/-! ## Entries that become DONE, each with its status -/

/-- The entries at these places become DONE in order, without data (R63). -/
def State.endAll (s : State) (xs : List (Nat × Status)) : State :=
  xs.foldl (fun t x => t.finish x.1 x.2 []) s

theorem State.endAll_tracker (xs : List (Nat × Status)) (s : State) : (s.endAll xs).tracker =
    (xs.map fun x => (x.1, EntryState.done x.2 [])).foldl (fun t x => setEntryState t x.1 x.2) s.tracker := by
  unfold State.endAll
  induction xs generalizing s with
  | nil => rfl
  | cons x xs ih => rw [List.foldl_cons, ih, State.finish_tracker, List.map_cons, List.foldl_cons]

/-- A port's list then: the places of its own entries join its end in the order named (R63). -/
theorem State.endAll_done (xs : List (Nat × Status)) (s : State) (p : PortId) : ((s.endAll xs).port p).done =
    (s.port p).done ++ (xs.map Prod.fst).filter fun x => s.entryIs x fun e => decide (e.port = p) := by
  unfold State.endAll State.entryIs
  induction xs generalizing s with
  | nil => exact (List.append_nil _).symm
  | cons x xs ih =>
    rw [List.foldl_cons, ih, State.finish_done]
    simp only [State.finish_entryPort, List.map_cons, List.filter_cons]
    split <;> simp

theorem State.endAll_setPool (xs : List (Nat × Status)) (s : State) (ra : ReadAhead) :
    State.endAll { s with readAhead := ra } xs = { s.endAll xs with readAhead := ra } := by
  unfold State.endAll
  induction xs generalizing s with
  | nil => rfl
  | cons x xs ih => rw [List.foldl_cons, List.foldl_cons, ← ih, s.finish_setPool ra x.1 x.2 []]

theorem State.endAll_append (s : State) (xs ys : List (Nat × Status)) :
    s.endAll (xs ++ ys) = (s.endAll xs).endAll ys := List.foldl_append

/-- The entries that the departing records end, with their statuses (R29, R35, R40). -/
def linkEnds (rs : List Report) : List (Nat × Status) :=
  rs.filterMap fun r => r.1.link.map fun x => (x, r.2.status r.1.poison)

theorem State.foldl_endEntry_eq (rs : List Report) (s : State) :
    rs.foldl State.endEntry s = s.endAll (linkEnds rs) := by
  unfold State.endAll linkEnds
  induction rs generalizing s with
  | nil => rfl
  | cons r rs ih =>
    rw [List.foldl_cons, ih, List.filterMap_cons]
    obtain ⟨unlinked, linked⟩ := s.endEntry_eq r
    cases link : r.1.link with
    | none => rw [unlinked link]; rfl
    | some x => rw [linked x link]; rfl

theorem linkEnds_places (rs : List Report) : (linkEnds rs).map Prod.fst = endedBy rs := by
  unfold linkEnds endedBy
  rw [List.map_filterMap]
  refine List.filterMap_congr fun r _ => ?_
  cases r.1.link <;> rfl

/-- The ends of emptied fences (R100). -/
def fenceEnds (done : List (Nat × FenceFields)) : List (Nat × Status) :=
  done.map fun x => (x.1, x.2.status)

/-- The pool after the ends of fences: one that purges leaves every stream FREE (R92, R102). -/
def ReadAhead.afterFences (ra : ReadAhead) (done : List (Nat × FenceFields)) : ReadAhead :=
  if done.any fun x => x.2.purge then ra.retireWhere fun _ => true else ra

theorem ReadAhead.purge_again (ra : ReadAhead) (env : FetchEnv) :
    (ra.retireWhere fun _ => true).purge env = ra.retireWhere fun _ => true := by
  have free := (ra.purge_eq env).2
  rw [(ra.purge_eq env).1] at free
  exact ReadAhead.purge_of_no_streams env free

theorem ReadAhead.afterFences_purged (ra : ReadAhead) (env : FetchEnv) (done : List (Nat × FenceFields)) :
    (ra.purge env).afterFences done = ra.retireWhere fun _ => true := by
  rw [(ra.purge_eq env).1]
  unfold ReadAhead.afterFences
  split
  · rw [← (ReadAhead.purge_eq (ra.retireWhere fun _ => true) env).1, ReadAhead.purge_again]
  · rfl

theorem State.finishFences_eq (done : List (Nat × FenceFields)) (s : State) : s.finishFences done =
    { s.endAll (fenceEnds done) with readAhead := s.readAhead.afterFences done } := by
  unfold State.finishFences
  induction done generalizing s with
  | nil => rfl
  | cons x done ih =>
    rw [List.foldl_cons, ih, State.finishFence_eq, State.endAll_setPool]
    dsimp only
    cases purge : x.2.purge with
    | true =>
      rw [if_pos rfl, ReadAhead.afterFences_purged, ReadAhead.afterFences, List.any_cons, purge]
      rfl
    | false =>
      rw [if_neg Bool.false_ne_true, ReadAhead.afterFences, ReadAhead.afterFences, List.any_cons, purge]
      rfl

/-! ## The tracker, the lists and the pool after departures -/

section Depart
variable {s : State} {rest : List WriteRecord} {rs : List Report}

/-- The entries that an event ends, in order (R64). -/
def State.ends (s : State) (rs : List Report) : List (Nat × Status) :=
  linkEnds rs ++ fenceEnds (s.emptied rs)

theorem State.ends_places (s : State) (rs : List Report) :
    (s.ends rs).map Prod.fst = endedBy rs ++ (s.emptied rs).map Prod.fst := by
  rw [State.ends, List.map_append, linkEnds_places, fenceEnds, List.map_map]
  rfl

theorem State.depart_endAll (s : State) (rest : List WriteRecord) (rs : List Report) : s.depart rest rs =
    State.weighReads { (s.departing rest rs).endAll (s.ends rs) with
      readAhead := (s.readAhead.dropRecords (departed rs)).afterFences (s.emptied rs) } := by
  rw [State.depart_eq, State.foldl_endEntry_eq, State.finishFences_eq, ← State.endAll_append]
  have pool : ((s.departing rest rs).endAll (linkEnds rs)).readAhead = s.readAhead.dropRecords (departed rs) :=
    (foldl_keeps _ State.readAhead (fun _ _ => by simp) _ _).trans (s.departing_readAhead rest rs)
  rw [pool]
  rfl

theorem State.depart_pool (s : State) (rest : List WriteRecord) (rs : List Report) : (s.depart rest rs).readAhead =
    (s.readAhead.dropRecords (departed rs)).afterFences (s.emptied rs) := by
  rw [State.depart_endAll, State.weighReads_readAhead]

/-- The tracker: reports, then ends, then weighing (R41, R52, R64). -/
theorem State.depart_tracker (s : State) (rest : List WriteRecord) (rs : List Report) :
    (s.depart rest rs).tracker = (((s.ends rs).map fun x => (x.1, EntryState.done x.2 [])).foldl
      (fun t x => setEntryState t x.1 x.2) (s.tracker.map (Entry.reported rs))).map
        (weighEntry rest s.memPort.orphanedWriteLines) := by
  have queue : ((s.departing rest rs).endAll (s.ends rs)).queue = rest :=
    (foldl_keeps _ State.queue (fun _ _ => by simp) _ _).trans (s.departing_queue rest rs)
  have memPort : ((s.departing rest rs).endAll (s.ends rs)).memPort = s.memPort :=
    (foldl_keeps _ State.memPort (fun _ _ => by simp) _ _).trans (s.departing_memPort rest rs)
  rw [State.depart_endAll, State.weighReads_tracker]
  dsimp only
  rw [queue, memPort, State.endAll_tracker, State.departing_tracker]

/-- Reports change the port of no entry. -/
theorem State.departing_entryIs_port (x : Nat) (p : PortId) :
    ((s.departing rest rs).entryIs x fun e => decide (e.port = p)) = s.entryIs x fun e => decide (e.port = p) := by
  unfold State.entryIs State.entryAt
  rw [State.departing_tracker, List.find?_map, Option.any_map]
  simp only [Function.comp_def, Entry.reported_place, Entry.reported_port]

theorem State.depart_done (p : PortId) : ((s.depart rest rs).port p).done = (s.port p).done ++
    ((s.ends rs).map Prod.fst).filter fun x => s.entryIs x fun e => decide (e.port = p) := by
  have list : ((s.depart rest rs).port p).done = (((s.departing rest rs).endAll (s.ends rs)).port p).done := by
    rw [State.depart_endAll]
    cases p <;> rfl
  rw [list, State.endAll_done, State.departing_done]
  simp only [State.departing_entryIs_port]

/-- An entry that the event does not end takes its reports and is weighed. -/
theorem State.mem_depart_of_kept {e : Entry} (mem : e ∈ s.tracker) (kept : e.place ∉ (s.ends rs).map Prod.fst) :
    weighEntry rest s.memPort.orphanedWriteLines (e.reported rs) ∈ (s.depart rest rs).tracker := by
  rw [State.depart_tracker]
  refine List.mem_map_of_mem (foldl_setEntryState_keeps _ _ _ (List.mem_map_of_mem mem) ?_)
  rwa [List.map_map, Entry.reported_place]

/-- An entry that the event ends, with its reports and its status. -/
theorem State.mem_depart_of_ended {e : Entry} {status : Status} (once : ((s.ends rs).map Prod.fst).Nodup)
    (mem : e ∈ s.tracker) (ended : (e.place, status) ∈ s.ends rs) :
    { e.reported rs with state := .done status [] } ∈ (s.depart rest rs).tracker := by
  have still : weighEntry rest s.memPort.orphanedWriteLines { e.reported rs with state := .done status [] } =
      { e.reported rs with state := .done status [] } :=
    weighEntry_other _ _ _ (fun h => nomatch h) (fun h => nomatch h)
  rw [State.depart_tracker, ← still]
  refine List.mem_map_of_mem (foldl_setEntryState_sets _ _ _ (List.mem_map_of_mem mem) _ ?_ ?_)
  · rw [Entry.reported_place]
    exact List.mem_map.2 ⟨_, ended, rfl⟩
  · rwa [List.map_map]

end Depart

end Sys2Proof.Machine
end

section
/-! SUPPORT. The departures of one event in a sound part (O31). -/

namespace Sys2Proof.Machine

/-! ## Reports at a fence -/

theorem Departure.status_eq (d : Departure) (poison : Bool) : d.status poison = endStatus d poison := by
  cases d with
  | succeeded => rfl
  | withdrawn => rfl
  | failed cause => cases cause <;> rfl

theorem Departure.isFailure_eq (d : Departure) : d.isFailure = !decide (d = .succeeded) := by
  cases d <;> rfl

theorem Departure.wasIssued_eq (d : Departure) : d.wasIssued = !decide (d = .withdrawn) := by
  cases d <;> rfl

/-- A report changes a fence that holds its record in the horizon, and no other (R98). -/
theorem FenceFields.report_eq (f : FenceFields) (r : WriteRecord) (d : Departure) :
    (r.place ∉ f.horizon → f.report (r, d) = f) ∧
    (r.place ∈ f.horizon → f.report (r, d) = { f with
      horizon := f.horizon.filter fun p => p ≠ r.place
      failedCount := f.failedCount + (if d = .succeeded then 0 else 1)
      poisonedSeen := f.poisonedSeen || (r.poison && !decide (d = .withdrawn)) }) := by
  refine ⟨fun out => if_neg out, fun held => (if_pos held).trans ?_⟩
  rw [← Departure.wasIssued_eq]
  cases d <;> rfl

/-- The reports of one event, each record reported once, counted by their outcomes (R98, R99). -/
theorem FenceFields.afterAll_eq (f : FenceFields) {rs : List Report} (once : (departed rs).Nodup) :
    f.reportAll rs = f.afterAll rs := by
  rw [FenceFields.reportAll_eq f rs once]
  unfold FenceFields.afterAll
  simp only [List.countP_filter, List.any_filter, Departure.isFailure_eq, Departure.wasIssued_eq,
    Bool.and_comm (f.horizon.contains _), departed]

theorem FenceFields.afterAll_status (f : FenceFields) (rs : List Report) : (f.afterAll rs).status =
    if (f.afterAll rs).failedCount = 0 ∧ f.droppedSeen = false then .ok else .faulted := rfl

/-- A horizon is empty after the reports when every place of it departed (R100). -/
theorem FenceFields.reportAll_horizon_nil (f : FenceFields) (rs : List Report) :
    (f.reportAll rs).horizon = [] ↔ (f.horizon.all fun p => (departed rs).contains p) = true := by
  rw [List.eq_nil_iff_forall_not_mem, List.all_eq_true]
  refine forall_congr' fun p => ?_
  rw [FenceFields.reportAll_horizon, List.contains_iff_mem, departed, List.mem_map]
  constructor
  · intro gone held
    by_contra stays
    exact gone ⟨held, fun r mem same => stays ⟨r, mem, same.symm⟩⟩
  · rintro gone ⟨held, stays⟩
    obtain ⟨r, mem, same⟩ := gone held
    exact stays r mem same.symm

/-! ## A sound part -/

section Sound
variable {s : State} {rs : List Report}

/-- A PENDING fence of a sound part has a horizon, so it is done when that is empty (R97, R100). -/
theorem State.WorkHeld.completedBy_eq (held : s.WorkHeld noEntry) {e : Entry} (mem : e ∈ s.tracker) :
    (e.completedBy rs).isSome = e.emptiedBy rs := by
  have keeps := (held.entries e mem).resolve_left id
  unfold State.Keeps at keeps
  unfold Entry.completedBy Entry.emptiedBy
  cases kind : e.kind with
  | read q => rfl
  | ackedWrite => rfl
  | fence f =>
    cases state : e.state with
    | pending =>
      rw [kind, state] at keeps
      dsimp only
      rw [Bool.eq_iff_iff, ← FenceFields.reportAll_horizon_nil]
      split
      · rename_i done
        simp [done.2]
      · rename_i stays
        simpa using fun empty => stays ⟨keeps.1, empty⟩
    | _ => rfl

theorem State.WorkHeld.emptied_eq (held : s.WorkHeld noEntry) : (s.emptied rs).map Prod.fst =
    (s.tracker.filter fun e => e.emptiedBy rs).map Entry.place := by
  rw [State.emptied_places]
  exact congrArg (List.map Entry.place) (List.filter_congr fun e mem => held.completedBy_eq mem)

theorem Entry.emptiedBy_fence {e : Entry} (h : e.emptiedBy rs = true) :
    ∃ f, e.kind = .fence f ∧ e.state = .pending := by
  unfold Entry.emptiedBy at h
  split at h
  · rename_i f kind state
    exact ⟨f, kind, state⟩
  · cases h

/-- In a sound acceptance order no record departs twice (R22). -/
theorem State.Ordered.departed_nodup (ordered : s.Ordered) (leave : (rs.map Prod.fst).Sublist s.queue) :
    (departed rs).Nodup := by
  have places := leave.map WriteRecord.place
  rw [List.map_map] at places
  exact (ordered.queue.imp Nat.ne_of_lt).sublist places

/-- The link of a departing record names its own entry, a queued acked write of the record's port. -/
theorem State.WorkHeld.linked (held : s.WorkHeld noEntry) (leave : (rs.map Prod.fst).Sublist s.queue)
    {x : Report} (mem : x ∈ rs) {place : Nat} (link : x.1.link = some place) :
    place = x.1.place ∧ s.Has place (Claim.Fits (.link x.1.port x.1.ackTag)) := by
  have queued := leave.subset (List.mem_map_of_mem mem)
  exact ⟨held.links _ queued place link, held.claimed _ place ⟨x.1, queued, link, rfl, rfl⟩⟩

/-- An entry that the departing records end is an acked write that waits for its record. -/
theorem State.WorkHeld.acked_of_mem (held : s.WorkHeld noEntry) (leave : (rs.map Prod.fst).Sublist s.queue)
    {e : Entry} (mem : e ∈ s.tracker) (ended : e.place ∈ endedBy rs) :
    e.kind = .ackedWrite ∧ e.state = .queued := by
  obtain ⟨x, departs, link⟩ := List.mem_filterMap.1 ended
  obtain ⟨-, e', mem', place, fits⟩ := held.linked leave departs link
  rw [held.entry_eq mem' mem place] at fits
  exact ⟨fits.1, fits.2.1⟩

/-- An entry that the event ends is an acked write or a fence that it empties. -/
theorem State.WorkHeld.mem_ends (held : s.WorkHeld noEntry) (leave : (rs.map Prod.fst).Sublist s.queue)
    {e : Entry} (mem : e ∈ s.tracker) (ended : e.place ∈ (s.ends rs).map Prod.fst) :
    e.kind = .ackedWrite ∨ e.emptiedBy rs = true := by
  rw [State.ends_places, List.mem_append] at ended
  refine ended.imp (fun linked => (held.acked_of_mem leave mem linked).1) fun emptied => ?_
  obtain ⟨e', mem', place, done⟩ := (s.mem_emptied rs _).1 emptied
  rw [← held.completedBy_eq mem, ← held.entry_eq mem' mem place]
  exact done

/-- No entry is ended twice by one event. -/
theorem State.WorkHeld.ends_nodup (held : s.WorkHeld noEntry) (ordered : s.Ordered)
    (leave : (rs.map Prod.fst).Sublist s.queue) : ((s.ends rs).map Prod.fst).Nodup := by
  rw [State.ends_places]
  refine List.nodup_append.2 ⟨?_, ?_, ?_⟩
  · rw [endedBy_eq fun r mem x link => (held.linked leave mem link).1]
    exact (ordered.departed_nodup leave).sublist (List.filter_sublist.map _)
  · rw [State.emptied_places]
    exact held.places.sublist (List.filter_sublist.map _)
  · rintro x linked _ emptied rfl
    obtain ⟨e, mem, rfl, done⟩ := (s.mem_emptied rs x).1 emptied
    obtain ⟨f, kind, -⟩ := Entry.completedBy_some done
    rw [(held.acked_of_mem leave mem linked).1] at kind
    cases kind

end Sound

end Sys2Proof.Machine
end

section
/-! SUPPORT. The departures of one event, entry by entry, list by list and in the pool (O31). -/

namespace Sys2Proof.Machine

section Sound
variable {s : State} {rest : List WriteRecord} {rs : List Report}

/-- The entry of a departing acked record is DONE with the status of its departure (R29, R35, R40). -/
theorem State.WorkLawful.depart_acked (work : s.WorkLawful) (leave : (rs.map Prod.fst).Sublist s.queue)
    {r : WriteRecord} {d : Departure} {place : Nat} (mem : (r, d) ∈ rs) (link : r.link = some place) :
    ∃ e ∈ s.tracker, e.place = place ∧
      { e with state := .done (endStatus d r.poison) [] } ∈ (s.depart rest rs).tracker := by
  obtain ⟨-, e, live, rfl, acked, -⟩ := work.held.linked leave mem link
  have ended : (e.place, d.status r.poison) ∈ s.ends rs :=
    List.mem_append_left _ (List.mem_filterMap.2 ⟨(r, d), mem, by rw [link]; rfl⟩)
  have done := State.mem_depart_of_ended (rest := rest) (work.held.ends_nodup work.ordered leave) live ended
  rw [Entry.reported_acked acked, Departure.status_eq] at done
  exact ⟨e, live, rfl, done⟩

/-- The fields with which a PENDING fence is done, if the event empties it (R100). -/
theorem State.WorkLawful.completedBy_fence (work : s.WorkLawful) (leave : (rs.map Prod.fst).Sublist s.queue)
    {e : Entry} {f : FenceFields} (mem : e ∈ s.tracker) (kind : e.kind = .fence f) (pending : e.state = .pending) :
    e.completedBy rs = if e.emptiedBy rs then some (f.afterAll rs) else none := by
  rw [← work.held.completedBy_eq mem, ← f.afterAll_eq (work.ordered.departed_nodup leave)]
  unfold Entry.completedBy
  rw [kind, pending]
  dsimp only
  split <;> rfl

/-- A PENDING fence takes the reports, and is DONE when they empty it (R98 to R100). -/
theorem State.WorkLawful.depart_fence (work : s.WorkLawful) (leave : (rs.map Prod.fst).Sublist s.queue)
    {e : Entry} {f : FenceFields} (mem : e ∈ s.tracker) (kind : e.kind = .fence f) (pending : e.state = .pending) :
    { e with
      kind := .fence (f.afterAll rs)
      state :=
        if e.emptiedBy rs then
          .done (if (f.afterAll rs).failedCount = 0 ∧ f.droppedSeen = false then .ok else .faulted) []
        else .pending } ∈ (s.depart rest rs).tracker := by
  have all := f.afterAll_eq (work.ordered.departed_nodup leave)
  have reported : e.reported rs = { e with kind := .fence (f.afterAll rs) } := by
    unfold Entry.reported
    rw [kind, pending]
    dsimp only
    rw [all]
  by_cases empty : e.emptiedBy rs = true
  · have completed := work.completedBy_fence leave mem kind pending
    rw [if_pos empty] at completed
    have ended : (e.place, (f.afterAll rs).status) ∈ s.ends rs := by
      refine List.mem_append_right _ (List.mem_map.2 ⟨(e.place, f.afterAll rs), ?_, rfl⟩)
      exact List.mem_filterMap.2 ⟨e, mem, by rw [completed]⟩
    have done := State.mem_depart_of_ended (rest := rest) (work.held.ends_nodup work.ordered leave) mem ended
    rw [reported, FenceFields.afterAll_status] at done
    rwa [if_pos empty]
  · have kept : e.place ∉ (s.ends rs).map Prod.fst := fun ended =>
      (work.held.mem_ends leave mem ended).elim (fun acked => by rw [kind] at acked; cases acked) empty
    have stays := State.mem_depart_of_kept (rest := rest) mem kept
    rw [reported, weighEntry_eq] at stays
    rw [if_neg empty, ← pending]
    exact stays

/-- A READ loses the departed records from its horizon and is weighed (R41, R52). -/
theorem State.WorkLawful.depart_read (work : s.WorkLawful) (leave : (rs.map Prod.fst).Sublist s.queue)
    {e : Entry} {q : ReadFields} (mem : e ∈ s.tracker) (kind : e.kind = .read q) :
    weighEntry rest s.memPort.orphanedWriteLines { e with kind := .read { q with
      horizon := q.horizon.filter fun p => !(departed rs).contains p } } ∈ (s.depart rest rs).tracker := by
  have reported : e.reported rs = { e with kind := .read { q with
      horizon := q.horizon.filter fun p => !(departed rs).contains p } } := by
    unfold Entry.reported
    rw [kind]
    rfl
  rw [← reported]
  refine State.mem_depart_of_kept mem fun ended => ?_
  rcases work.held.mem_ends leave mem ended with acked | empty
  · rw [kind] at acked
    cases acked
  · obtain ⟨f, fence, -⟩ := Entry.emptiedBy_fence empty
    rw [kind] at fence
    cases fence

/-- In a sound part the entry of a place is the live one. -/
theorem State.WorkHeld.entryIs_eq (held : s.WorkHeld noEntry) {e : Entry} (mem : e ∈ s.tracker)
    (f : Entry → Bool) : s.entryIs e.place f = f e := by
  rw [State.entryIs, State.entryAt_of_mem held.places mem]
  rfl

/-- Each port's list grows by its linked records and then by its emptied fences (R64). -/
theorem State.WorkLawful.depart_lists (work : s.WorkLawful) (leave : (rs.map Prod.fst).Sublist s.queue)
    (p : PortId) : ((s.depart rest rs).port p).done = (s.port p).done ++
      (rs.filterMap fun x => if x.1.port = p then x.1.link else none) ++
      (s.tracker.filter fun e => decide (e.port = p) && e.emptiedBy rs).map Entry.place := by
  have linked : (endedBy rs).filter (fun x => s.entryIs x fun e => decide (e.port = p)) =
      rs.filterMap fun x => if x.1.port = p then x.1.link else none := by
    rw [endedBy, List.filter_filterMap]
    refine List.filterMap_congr fun x mem => ?_
    cases link : x.1.link with
    | none => exact (ite_self none).symm
    | some place =>
      obtain ⟨-, e, live, rfl, -, -, own, -⟩ := work.held.linked leave mem link
      rw [Option.filter_some, work.held.entryIs_eq live, own]
      simp only [decide_eq_true_eq]
  have emptied : ((s.emptied rs).map Prod.fst).filter (fun x => s.entryIs x fun e => decide (e.port = p)) =
      (s.tracker.filter fun e => decide (e.port = p) && e.emptiedBy rs).map Entry.place := by
    rw [work.held.emptied_eq, List.filter_map, List.filter_filter]
    refine congrArg (List.map Entry.place) (List.filter_congr fun e mem => ?_)
    rw [Function.comp_apply, work.held.entryIs_eq mem]
  rw [State.depart_done, State.ends_places, List.filter_append, linked, emptied, List.append_assoc]

end Sound

/-! ## The pool -/

theorem ReadAhead.dropRecords_lines (ra : ReadAhead) (gone : List Nat) (i : LineId) :
    (ra.dropRecords gone).lines[i] = (ra.lines[i]).map fun l =>
      { l with horizon := l.horizon.filter fun p => !gone.contains p } := by
  refine (mapVec_getElem_fin _ _ i).trans ?_
  cases ra.lines[i] <;> rfl

/-- In a lawful pool the retirement of every stream releases the owned lines (R75, R87). -/
theorem ReadAhead.Lawful.retireAll_lines {ra : ReadAhead} {W : Addr → Prop} (lawful : ra.Lawful W) (i : LineId) :
    (ra.retireWhere fun _ => true).lines[i] =
      (ra.lines[i]).bind fun l => if l.owner = none then some l else l.released := by
  rw [ReadAhead.retireWhere_lines]
  cases line : ra.lines[i] with
  | none => exact ite_self none
  | some l =>
    rw [Option.bind_some, Option.bind_some]
    cases owner : l.owner with
    | none =>
      rw [if_pos rfl, if_neg]
      rintro ⟨k, owns⟩
      obtain ⟨st, stream, owns⟩ := (Option.any_eq_true _ _).1 owns
      obtain ⟨l', line', owner'⟩ := lawful.owned k st i stream (by simpa using owns)
      rw [line] at line'
      cases line'
      rw [owner] at owner'
      cases owner'
    | some k =>
      obtain ⟨st, stream, owns⟩ := lawful.owner i l k line owner
      rw [if_pos ⟨k, by simp [stream, owns]⟩, if_neg (fun h => nomatch h)]

section Sound
variable {s : State} {rest : List WriteRecord} {rs : List Report}

/-- Whether a fence that the event empties purges. -/
theorem State.WorkLawful.purges_iff (work : s.WorkLawful) (leave : (rs.map Prod.fst).Sublist s.queue) :
    ((s.emptied rs).any fun x => x.2.purge) = true ↔
      ∃ e ∈ s.tracker, ∃ f, e.kind = .fence f ∧ e.emptiedBy rs = true ∧ f.purge = true := by
  rw [State.emptied, List.any_filterMap, List.any_eq_true]
  refine exists_congr fun e => and_congr_right fun mem => ?_
  by_cases empty : e.emptiedBy rs = true
  · obtain ⟨f, kind, pending⟩ := Entry.emptiedBy_fence empty
    rw [work.completedBy_fence leave mem kind pending, if_pos empty]
    constructor
    · exact fun purge => ⟨f, kind, empty, purge⟩
    · rintro ⟨f', kind', -, purge⟩
      rw [kind] at kind'
      cases kind'
      exact purge
  · have stays : e.completedBy rs = none := by
      rwa [← Option.not_isSome_iff_eq_none, work.held.completedBy_eq mem]
    rw [stays]
    exact ⟨fun purge => absurd purge Bool.false_ne_true, fun ⟨_, _, empty', _⟩ => absurd empty' empty⟩

end Sound

/-- Settles O31: the event's effect on each entry, each list and the pool, and one report by itself. -/
theorem departureReportsToTracker : Obligations.DepartureReportsToTracker := by
  refine ⟨fun s rest rs sound leave => ?_, FenceFields.report_eq⟩
  have work := s.workSound_iff.1 sound
  refine ⟨fun r d place mem link => work.depart_acked leave mem link,
    fun e mem f kind pending => work.depart_fence leave mem kind pending,
    fun e mem q kind => work.depart_read leave mem kind, fun p => work.depart_lists leave p,
    fun calm => ?_, fun purges => ?_, ?_⟩
  all_goals rw [State.depart_pool, ReadAhead.afterFences]
  · have calm : ¬ ((s.emptied rs).any fun x => x.2.purge) = true := by
      rw [work.purges_iff leave]
      rintro ⟨e, mem, f, kind, empty, purge⟩
      exact Bool.false_ne_true ((calm e mem f kind empty).symm.trans purge)
    rw [if_neg calm]
    exact ⟨rfl, ReadAhead.dropRecords_lines _ _⟩
  · rw [if_pos ((work.purges_iff leave).2 purges)]
    refine ⟨fun k => ?_, fun i => ?_⟩
    · rw [← (ReadAhead.purge_eq _ s.fetchEnv).1]
      exact (ReadAhead.purge_eq _ s.fetchEnv).2 k
    · rw [(work.pooled.lawful.dropRecords _).retireAll_lines, ReadAhead.dropRecords_lines, Option.bind_map]
      refine congrArg (Option.bind _) (funext fun l => ?_)
      rw [Function.comp_apply]
      dsimp only
      cases owner : l.owner with
      | none => exact if_pos rfl
      | some k =>
        rw [if_neg (fun h => nomatch h)]
        unfold Line.released
        cases state : l.state with
        | pending d => simp only [List.isEmpty_iff]
        | _ => rfl
  · split
    · exact ReadAhead.retireWhere_nextFetch _ _
    · rfl

end Sys2Proof.Machine
end

section
/-! SUPPORT. A READ presented to the read-ahead unit: hit, attach and miss (O14). -/

namespace Sys2Proof.Machine

section Presented
variable {s : State} {p : PortId} {tag n : Byte} {a : Addr} {w : WindowId}

/-- The fields that a READ copies at its match are those of its entry (R17, R49). -/
theorem State.addRead_matching (s : State) (p : PortId) (tag : Byte) (a : Addr) (n : Nat) (horizon : List Nat)
    (state : EntryState) :
    s.addRead p tag { s.table.readFields (s.table.matching a) a n [] with horizon := horizon } state =
      s.joined (s.readEntry p tag a n horizon state) := rfl

/-- A new entry is found at its place. -/
theorem State.entryAt_addEntry {e : Entry} (new : ∀ x ∈ s.tracker, x.place ≠ e.place) :
    (s.addEntry e).entryAt e.place = some e := by
  rw [State.entryAt, State.addEntry_tracker, List.find?_append,
    List.find?_eq_none.2 fun x mem => by simpa using new x mem]
  simp

theorem State.dataAt_of_entryAt {e : Entry} {place : Nat} (found : s.entryAt place = some e) (line : LineData) :
    s.dataAt line place = e.dataFrom line := by
  rw [State.dataAt, found]
  rfl

/-- A READ in a window that reads ahead is presented to the unit (R49, R71). -/
theorem State.handOffRead_presented (matched : s.table.matching a = .window w)
    (deep : 0 < s.table.windows[w].fields.depth) : s.handOffRead p tag a n =
      s.readPresented p tag (s.table.readFields (s.table.matching a) a n.toNat []) w := by
  unfold State.handOffRead
  rw [matched]
  exact if_pos deep

/-- A hit is DONE at once with the bytes of the line, OK or POISONED (R61, R72). -/
theorem State.readHit_eq (new : ∀ e ∈ s.tracker, e.place ≠ s.nextPlace) {i : LineId} {l : Line} {poison : Bool}
    {data : LineData} (line : s.readAhead.lines[i] = some l) (valid : l.state = .valid poison data) :
    s.readHit p tag (s.table.readFields (s.table.matching a) a n.toNat []) i =
      { s.joinedDone (s.readEntry p tag a n.toNat [] (.done (readStatus poison)
          (spanData (s.table.policy (s.table.matching a)).lane (offsetOf a) n.toNat data))) with
        readAhead := s.readAhead.use s.fetchEnv i } := by
  have served : (s.joined (s.readEntry p tag a n.toNat [] .orderWait)).finishRead poison data s.nextPlace =
      s.joinedDone (s.readEntry p tag a n.toNat [] (.done (readStatus poison)
        (spanData (s.table.policy (s.table.matching a)).lane (offsetOf a) n.toNat data))) := by
    have found := State.entryAt_addEntry (e := s.readEntry p tag a n.toNat [] .orderWait) new
    have ends := State.finish_addEntry (e := s.readEntry p tag a n.toNat [] .orderWait) (readStatus poison)
      (spanData (s.table.policy (s.table.matching a)).lane (offsetOf a) n.toNat data) new
    rw [State.finishRead_eq]
    exact (congrArg (State.finish _ _ _) (State.dataAt_of_entryAt found data)).trans ends
  unfold State.readHit
  rw [State.addRead_matching, ← served]
  obtain ⟨state, stale, target, owner, retry, waitCount, horizon, order, attached⟩ := l
  subst valid
  rw [line]

/-- An attach makes an ATTACHED entry, the last of the line's attached reads (R61, R73). -/
theorem State.readAttach_eq {i : LineId} {l : Line} (line : s.readAhead.lines[i] = some l) :
    s.readAttach p tag (s.table.readFields (s.table.matching a) a n.toNat []) i =
      { s.joined (s.readEntry p tag a n.toNat [] .attached) with
        readAhead := (s.readAhead.setLine i (some { l with
          attached := l.attached ++ [s.nextPlace] })).use s.fetchEnv i } := by
  rw [State.readAttach, State.addRead_matching, ReadAhead.attach_of_some line]

/-- A miss is a demand read, and the unit looks forward (R61, R78, R79). -/
theorem State.readMiss_eq (weighed : s.Weighed) (matched : s.table.matching a = .window w) :
    s.readMiss p tag (s.table.readFields (s.table.matching a) a n.toNat []) w =
      { s.joined (s.readEntry p tag a n.toNat s.queuedPlaces
          (s.firstState (s.readEntry p tag a n.toNat s.queuedPlaces .orderWait))) with
        readAhead := s.readAhead.miss s.fetchEnv p w
          (lineOf (s.table.windows[w].fields.translate a)) } := by
  have demand : s.readDemand p tag (s.table.readFields (s.table.matching a) a n.toNat []) =
      s.joined (s.readEntry p tag a n.toNat s.queuedPlaces
        (s.firstState (s.readEntry p tag a n.toNat s.queuedPlaces .orderWait))) :=
    State.addEntry_weighReads (e := s.readEntry p tag a n.toNat s.queuedPlaces .orderWait) weighed rfl rfl
  rw [State.readMiss, demand, matched]
  rfl

end Presented

/-- Settles O14: the admitted READ is presented to the unit, whose lookup names the case. -/
theorem readMeetsPool : Obligations.ReadMeetsPool := by
  intro s p rest tag a n w weighed _ admits matched deep spent f target
  obtain ⟨ordered, weighed⟩ := s.readsWeighed_iff.1 weighed
  have fields : spent.table.readFields (spent.table.matching a) a n.toNat [] =
      s.table.readFields (s.table.matching a) a n.toNat [] := by rw [State.setPort_table]
  have line : (s.table.readFields (s.table.matching a) a n.toNat []).line = target := by
    rw [matched]
    rfl
  have policy : s.table.policy (s.table.matching a) = f := by
    rw [matched]
    rfl
  have pool : spent.readAhead = s.readAhead := State.setPort_readAhead ..
  have handed : exec (.requestRead p rest) s = .next (spent.readPresented p tag
      (s.table.readFields (s.table.matching a) a n.toNat []) w).settle := by
    rw [exec_of_admits admits, State.handOff,
      State.handOffRead_presented (by simpa using matched) (by simpa using deep), fields]
  rw [handed, State.readPresented, line, pool, ← fields]
  refine ⟨fun i l poison data hit found valid => ?_, fun i l attach found => ?_, fun miss => ?_⟩
  · rw [hit]
    dsimp only
    rw [State.readHit_eq (s := spent) (by simpa [spent] using ordered.fresh) (pool ▸ found) valid]
    simp only [State.setPort_table, State.setPort_readEntry, State.setPort_fetchEnv, policy, pool, spent]
    rfl
  · rw [attach]
    dsimp only
    rw [State.readAttach_eq (s := spent) (pool ▸ found)]
    simp only [State.setPort_readEntry, State.setPort_fetchEnv, State.setPort_nextPlace, pool, spent]
  · rw [miss]
    dsimp only
    rw [State.readMiss_eq (s := spent) (by simpa [spent, State.Weighed] using weighed)
      (by simpa [spent] using matched)]
    simp only [State.setPort_table, State.setPort_readEntry, State.setPort_fetchEnv, State.setPort_queuedPlaces,
      State.setPort_firstState, pool, spent]
    rfl

end Sys2Proof.Machine
end

section
/-! SUPPORT. The response to a fetch (O33). -/

namespace Sys2Proof.Machine

/-! ## Reads that are served one after another -/

/-- The data that a line gives to an entry does not change when an entry becomes DONE. -/
theorem State.finish_dataAt (s : State) (place : Nat) (status : Status) (data : List Byte) (line : LineData)
    (x : Nat) : (s.finish place status data).dataAt line x = s.dataAt line x := by
  unfold State.dataAt State.entryAt
  rw [State.finish_tracker, setEntryState]
  induction s.tracker with
  | nil => rfl
  | cons e rest ih =>
    have same : (if e.place = place then { e with state := .done status data } else e).place = e.place := by
      split <;> rfl
    rw [List.map_cons, List.find?_cons, List.find?_cons, same]
    split
    · rw [Option.map_some, Option.map_some]
      split <;> rfl
    · exact ih

/-- The entries at these places become DONE in order with one status, each with its own data (R63). -/
def State.endEach (s : State) (places : List Nat) (status : Status) (data : Nat → List Byte) : State :=
  places.foldl (fun t x => t.finish x status (data x)) s

section Each
variable (places : List Nat) (status : Status) (data : Nat → List Byte) (s : State)

/-- Serving reads ends each with the data that the line gives to it at the start (R82, R83). -/
theorem State.foldl_finishRead_eq (poison : Bool) (line : LineData) :
    places.foldl (State.finishRead · poison line ·) s = s.endEach places (readStatus poison) (s.dataAt line) := by
  have fixed (t : State) (same : t.dataAt line = s.dataAt line) :
      places.foldl (State.finishRead · poison line ·) t = t.endEach places (readStatus poison) (s.dataAt line) := by
    unfold State.endEach
    induction places generalizing t with
    | nil => rfl
    | cons x places ih =>
      rw [List.foldl_cons, List.foldl_cons, State.finishRead_eq, same]
      exact ih _ ((funext fun y => t.finish_dataAt ..).trans same)
  exact fixed s rfl

theorem State.endEach_tracker : (s.endEach places status data).tracker =
    (places.map fun x => (x, EntryState.done status (data x))).foldl (fun t x => setEntryState t x.1 x.2)
      s.tracker := by
  unfold State.endEach
  induction places generalizing s with
  | nil => rfl
  | cons x places ih => rw [List.foldl_cons, ih, State.finish_tracker, List.map_cons, List.foldl_cons]

/-- A port's list then: the places of its own entries join its end in the order named (R63). -/
theorem State.endEach_done (p : PortId) : ((s.endEach places status data).port p).done =
    (s.port p).done ++ places.filter fun x => s.entryIs x fun e => decide (e.port = p) := by
  unfold State.endEach State.entryIs
  induction places generalizing s with
  | nil => exact (List.append_nil _).symm
  | cons x places ih =>
    rw [List.foldl_cons, ih, State.finish_done]
    simp only [State.finish_entryPort, List.filter_cons]
    split <;> simp

/-- The part but for the tracker and the lists of the ports is left as it was (R63). -/
theorem State.endEach_frame : s.endEach places status data = { s with
    tracker := (s.endEach places status data).tracker
    portA := { s.portA with done := (s.endEach places status data).portA.done }
    portB := { s.portB with done := (s.endEach places status data).portB.done } } := by
  have ports : s.OnlyDone (s.endEach places status data) :=
    State.onlyDone_foldl _ (fun t x => t.onlyDone_finish x status (data x)) places s
  have keeps {γ : Type} (g : State → γ) (kept : ∀ t x, g (State.finish t x status (data x)) = g t) :
      g (s.endEach places status data) = g s := foldl_keeps _ g kept places s
  exact State.eq_of_fields (keeps _ fun _ _ => by simp) (keeps _ fun _ _ => by simp) (keeps _ fun _ _ => by simp)
    (keeps _ fun _ _ => by simp) rfl (keeps _ fun _ _ => by simp) (keeps _ fun _ _ => by simp)
    (keeps _ fun _ _ => by simp) (ports .a) (ports .b) (keeps _ fun _ _ => by simp) (keeps _ fun _ _ => by simp)
    (keeps _ fun _ _ => by simp) (keeps _ fun _ _ => by simp) (keeps _ fun _ _ => by simp)
    (keeps _ fun _ _ => by simp)

/-- The same with another pool. -/
theorem State.endEach_setPool (ra : ReadAhead) : { s.endEach places status data with readAhead := ra } = { s with
    tracker := (s.endEach places status data).tracker
    readAhead := ra
    portA := { s.portA with done := (s.endEach places status data).portA.done }
    portB := { s.portB with done := (s.endEach places status data).portB.done } } :=
  congrArg (fun u : State => { u with readAhead := ra }) (State.endEach_frame places status data s)

variable {places s}

theorem endEach_states_places : (places.map fun x => (x, EntryState.done status (data x))).map Prod.fst = places := by
  rw [List.map_map]
  exact List.map_id _

/-- A named entry is DONE with the data of its place. -/
theorem State.endEach_named (nodup : places.Nodup) {e : Entry} (mem : e ∈ s.tracker) (named : e.place ∈ places) :
    { e with state := .done status (data e.place) } ∈ (s.endEach places status data).tracker := by
  rw [State.endEach_tracker]
  exact foldl_setEntryState_sets _ _ e mem _ (List.mem_map.2 ⟨_, named, rfl⟩) (by rwa [endEach_states_places])

/-- Any other entry stays as it is. -/
theorem State.endEach_other {e : Entry} (mem : e ∈ s.tracker) (other : e.place ∉ places) :
    e ∈ (s.endEach places status data).tracker := by
  rw [State.endEach_tracker]
  exact foldl_setEntryState_keeps _ _ e mem (by rwa [endEach_states_places])

end Each

/-! ## The outcomes of a fetch -/

section Fetch
variable {s : State} {i : LineId} {l : Line} {r : Response}

/-- What a fetch that succeeds is made of (R82, R83). -/
theorem State.fetchSucceeds_eq (line : s.readAhead.lines[i] = some l) (poison : Bool) (data : LineData) :
    s.fetchSucceeds i poison data = { s.endEach l.attached (readStatus poison) (s.dataAt data) with
      readAhead :=
        if l.owner.isSome ∧ l.stale = false then
          s.readAhead.setLine i (some { l with state := .valid poison data, horizon := [], attached := [] })
        else (s.readAhead.setLine i none).topUp s.fetchEnv } := by
  have served : s.serveAttached i poison data = s.endEach l.attached (readStatus poison) (s.dataAt data) := by
    rw [State.serveAttached, ReadAhead.attachedTo_of_some line, State.foldl_finishRead_eq]
  have pool : (s.endEach l.attached (readStatus poison) (s.dataAt data)).readAhead = s.readAhead := by
    rw [State.endEach_frame]
  have env : (s.endEach l.attached (readStatus poison) (s.dataAt data)).fetchEnv = s.fetchEnv := by
    rw [State.endEach_frame]
    rfl
  unfold State.fetchSucceeds ReadAhead.fetched
  dsimp only
  rw [served, pool, env, line]

/-- Data of kind OK or OK_POISON lets a fetch succeed (R82, R83). -/
theorem State.fetchAnswered_data {data : LineData} (given : r.data = some data)
    (told : r.kind = .ok ∨ r.kind = .okPoison) :
    s.fetchAnswered i r = s.fetchSucceeds i (decide (r.kind = .okPoison)) data := by
  unfold State.fetchAnswered Response.effective
  rw [given]
  rcases told with told | told <;> rw [told] <;> rfl

theorem State.fetchAnswered_wait (told : r.kind = .wait) : s.fetchAnswered i r = s.fetchWaits i := by
  unfold State.fetchAnswered Response.effective
  rw [told]

/-- FAULT, and OK or OK_POISON without data, let a fetch fail (R85, R111). -/
theorem State.fetchAnswered_fault (told : r.kind = .fault ∨ (r.data = none ∧ r.kind ≠ .wait)) :
    s.fetchAnswered i r = s.fetchFails i .memFault := by
  unfold State.fetchAnswered Response.effective
  rcases told with fault | ⟨absent, waits⟩
  · rw [fault]
  · rw [absent]
    cases told : r.kind with
    | wait => exact absurd told waits
    | _ => rfl

/-- A wanted line that is told WAIT below its limit is PENDING in backoff (R84). -/
theorem State.fetchWaits_again (line : s.readAhead.lines[i] = some l)
    (wanted : l.attached ≠ [] ∨ (l.owner.isSome ∧ l.stale = false))
    (tolerated : l.retry.bound = none ∨ ∃ limit, l.retry.bound = some limit ∧ l.waitCount < limit) :
    s.fetchWaits i = { s with readAhead := s.readAhead.setLine i (some { l with
      state := .pending (some (timerFrom s.startUp.counter s.startUp.params.backoff))
      waitCount := if l.retry = .unlimited then min (l.waitCount + 1) 65535 else l.waitCount + 1 }) } := by
  unfold State.fetchWaits Line.afterWait
  rw [line]
  dsimp only
  rw [if_pos wanted, afterWait_tolerated tolerated]

/-- A wanted line that is told WAIT at its limit fails (R84). -/
theorem State.fetchWaits_spent (line : s.readAhead.lines[i] = some l)
    (wanted : l.attached ≠ [] ∨ (l.owner.isSome ∧ l.stale = false))
    (spent : ∃ limit, l.retry.bound = some limit ∧ limit ≤ l.waitCount) :
    s.fetchWaits i = s.fetchFails i .retrySpent := by
  unfold State.fetchWaits Line.afterWait
  rw [line]
  dsimp only
  rw [if_pos wanted, afterWait_eq_none.2 spent]

/-- A line that nobody may read is FREE after a WAIT (R84). -/
theorem State.fetchWaits_dropped (line : s.readAhead.lines[i] = some l) (unread : l.attached = [])
    (unwanted : l.owner = none ∨ l.stale = true) :
    s.fetchWaits i = { s with readAhead := (s.readAhead.setLine i none).topUp s.fetchEnv } := by
  have nobody : ¬ (l.attached ≠ [] ∨ (l.owner.isSome ∧ l.stale = false)) := by
    rintro (attached | ⟨owned, fresh⟩)
    · exact attached unread
    · rcases unwanted with loose | stale
      · rw [loose] at owned
        cases owned
      · rw [stale] at fresh
        cases fresh
  unfold State.fetchWaits Line.afterWait
  rw [line]
  dsimp only
  rw [if_neg nobody]

end Fetch

/-- Settles O33: the response reaches the line, which is served, waits, is dropped or fails. -/
theorem fetchTakesResponse : Obligations.FetchTakesResponse := by
  intro s message i l line deadline awake sound r slot found joins
  have held := (s.workSound_iff.1 sound).held
  have live {e : Entry} (mem : e ∈ s.tracker) : (s.slotFreed r.slot).entryAt e.place = some e :=
    State.entryAt_of_mem held.places mem
  have nodup : l.attached.Nodup := ReadAhead.attachedTo_of_some found ▸ held.attached.nodup i
  have found' : (s.slotFreed r.slot).readAhead.lines[i] = some l := found
  have reached : exec (.response message) s = .next ((s.slotFreed r.slot).fetchAnswered i r).settle := by
    rw [exec_response_awake message awake, State.respond_busy slot]
    rfl
  rw [reached]
  refine ⟨fun data given told => ?_, fun wait wanted tolerated => ?_, fun wait unread unwanted => ?_,
    fun status fails => ?_⟩
  · rw [State.fetchAnswered_data given told, State.fetchSucceeds_eq found']
    refine ⟨_, rfl, State.endEach_done _ _ _ _,
      fun e mem q kind attached => ⟨_, State.endEach_named _ _ nodup mem attached, ?_⟩,
      fun e mem other => State.endEach_other _ _ mem other, rfl, ?_⟩
    · have data_eq : (s.slotFreed r.slot).dataAt data e.place = spanData q.lane q.offset q.length data := by
        rw [State.dataAt_of_entryAt (live mem), Entry.dataFrom, kind]
      rw [data_eq]
      rcases told with told | told <;> rw [told] <;> rfl
    · exact State.endEach_setPool l.attached _ _ (s.slotFreed r.slot) _
  · rw [State.fetchAnswered_wait wait, State.fetchWaits_again found' wanted tolerated]
    rfl
  · rw [State.fetchAnswered_wait wait, State.fetchWaits_dropped found' unread unwanted]
    rfl
  · rcases fails with ⟨fault, rfl⟩ | ⟨wait, wanted, spent, rfl⟩
    · rw [State.fetchAnswered_fault fault]
      exact ⟨_, rfl, State.fetchFails_fetchFailure found nodup _ .memFault⟩
    · rw [State.fetchAnswered_wait wait, State.fetchWaits_spent found' wanted spent]
      exact ⟨_, rfl, State.fetchFails_fetchFailure found nodup _ .retrySpent⟩

end Sys2Proof.Machine
end

section
/-! SUPPORT. What the arbiter's choice waits for (O60). -/

namespace Sys2Proof.Machine

section Chosen
variable {s : State}

/-- A fetch that the arbiter chooses is the read-ahead unit's candidate (R123, R125). -/
theorem State.chooseGrant_fetch_candidate {k : LineId} (choice : s.chooseGrant = some (.fetch k)) :
    s.readAhead.candidate s.queue s.memPort.orphanedWriteLines = some k := by
  have grantable : s.fetchGrantable = some k := by
    unfold State.chooseGrant at choice
    split at choice
    · split at choice <;> cases choice
    · cases choice
    · cases choice
    · obtain ⟨k', found, same⟩ := Option.map_eq_some_iff.1 choice
      cases same
      exact found
  unfold State.fetchGrantable at grantable
  split at grantable
  · exact grantable
  · cases grantable

/-- With every read weighed, the candidate demand read is eligible (R51 to R53). -/
theorem State.Weighed.demandCandidate_eligible (weighed : s.Weighed) {e : Entry} {r : ReadFields}
    (candidate : s.demandCandidate = some (e, r)) :
    readEligible s.queue s.memPort.orphanedWriteLines e.port r = true := by
  obtain ⟨mem, kind, ready⟩ := State.demandCandidate_some candidate
  have state := weighEntry_read s.queue s.memPort.orphanedWriteLines e r kind (.inr ready)
  rw [weighed e mem, ready] at state
  by_contra waits
  rw [if_neg waits] at state
  cases state

end Chosen

/-- Settles O60: the chosen read or line is a candidate, and a candidate is eligible. -/
theorem grantWaitsForEarlierWrites : Obligations.GrantWaitsForEarlierWrites := by
  intro s weighed
  refine ⟨fun e r choice => ?_, fun k l choice line => ?_⟩
  · exact (readEligible_iff _ _ _ _).1
      (((s.readsWeighed_iff).1 weighed).2.demandCandidate_eligible (State.chooseGrant_demand choice))
  · obtain ⟨l', line', eligible, -⟩ := ReadAhead.candidate_some (State.chooseGrant_fetch_candidate choice)
    rw [line] at line'
    cases line'
    exact ((lineEligible_iff _ _ _).1 eligible).2

end Sys2Proof.Machine
end

section
/-! SUPPORT. The sending of completions (O37). -/

namespace Sys2Proof.Machine

/-! ## The turn -/

theorem State.creditWaits_iff (s : State) (p : PortId) : s.creditWaits p = true ↔
    s.quiesce = .running ∧ (0 < (s.port p).writeOwed ∨ 0 < (s.port p).requestOwed) := by
  simp [State.creditWaits, Port.owesCredit]

/-- The link goes to a completion (R145, R146). -/
theorem State.completionTurn_iff (s : State) (p : PortId) : s.completionTurn p = true ↔
    (s.port p).state = .active ∧ (s.port p).link = .idle ∧ (s.port p).done ≠ [] ∧
      (s.quiesce = .running ∧ (0 < (s.port p).writeOwed ∨ 0 < (s.port p).requestOwed) →
        (s.port p).lastSent = .credit) := by
  rw [← State.creditWaits_iff]
  simp only [State.completionTurn, Bool.and_eq_true, Bool.or_eq_true, Bool.not_eq_true', decide_eq_true_eq,
    List.isEmpty_eq_false_iff, and_assoc]
  cases s.creditWaits p <;> simp

/-! ## The oldest entry -/

/-- A place on a port's list is that of a live entry of the port (R63). -/
theorem State.WorkHeld.listed_entry {s : State} {p : PortId} {x : Nat} (held : s.WorkHeld noEntry)
    (listed : x ∈ (s.port p).done) : ∃ e ∈ s.tracker, e.place = x ∧ e.port = p := by
  obtain ⟨e, mem, place, -, port⟩ := held.claimed (.list p) x listed
  exact ⟨e, mem, place, port⟩

/-- With distinct places, freeing an entry removes all that has its place (R65). -/
theorem eraseP_eq_filter_place {tracker : List Entry} {e : Entry} (places : (tracker.map Entry.place).Nodup)
    (mem : e ∈ tracker) :
    (tracker.eraseP fun x => decide (x.place = e.place ∧ x.port = e.port)) =
      tracker.filter fun x => !decide (x.place = e.place) := by
  induction tracker with
  | nil => cases mem
  | cons x rest ih =>
    rw [List.map_cons, List.nodup_cons] at places
    obtain ⟨fresh, places⟩ := places
    rcases List.mem_cons.1 mem with rfl | mem
    · have others : ∀ y ∈ rest, (!decide (y.place = e.place)) = true := fun y hy => by
        simpa using fun same : y.place = e.place => fresh (same ▸ List.mem_map_of_mem hy)
      rw [List.eraseP_cons_of_pos (by simp), List.filter_cons_of_neg (by simp), List.filter_eq_self.2 others]
    · have other : x.place ≠ e.place := fun same => fresh (same ▸ List.mem_map_of_mem mem)
      rw [List.eraseP_cons_of_neg (by simp [other]), List.filter_cons_of_pos (by simp [other]), ih places mem]

/-- A live entry that is freed leaves the tracker, and one request credit is owed (R65). -/
theorem State.freeEntry_of_mem {s : State} {e : Entry} (places : (s.tracker.map Entry.place).Nodup)
    (mem : e ∈ s.tracker) : s.freeEntry e.port e.place =
      { s with tracker := s.tracker.filter fun x => !decide (x.place = e.place) }.setPort e.port
        (s.port e.port).oweRequest := by
  have lives : (s.tracker.any fun x => x.place = e.place ∧ x.port = e.port) = true :=
    List.any_eq_true.2 ⟨e, mem, by simp⟩
  rw [State.freeEntry, if_pos lives, eraseP_eq_filter_place places mem]

/-! ## The commands -/

theorem exec_completionBegin_idle {s : State} {p : PortId} (other : ¬ s.completionTurn p = true) :
    exec (.completionBegin p) s = .next s := by
  rw [exec_completionBegin, execCompletionBegin, State.completionBegin, if_neg other, State.take_none]

theorem exec_completionBegin_turn {s : State} {p : PortId} {e : Entry} {rest : List Nat} (awake : s.awake)
    (turn : s.completionTurn p = true) (done : (s.port p).done = e.place :: rest)
    (live : s.entryAt e.place = some e) : exec (.completionBegin p) s = .next (s.setPort p { s.port p with
      link := .sendingCompletion e.completion, lastSent := .completion }).settle := by
  have message : s.completionAt e.place = e.completion := by rw [State.completionAt, live]
  rw [exec_completionBegin, execCompletionBegin, State.completionBegin, if_pos turn, done]
  dsimp only
  rw [message, State.take_some _ _ awake]

theorem exec_completionSent_sending {s : State} {p : PortId} {message : List LinkByte} {oldest : Nat}
    {rest : List Nat} (awake : s.awake) (link : (s.port p).link = .sendingCompletion message)
    (done : (s.port p).done = oldest :: rest) : exec (.completionSent p) s =
      .next ((s.setPort p { s.port p with link := .idle, done := rest }).freeEntry p oldest).settle := by
  rw [exec_completionSent, execCompletionSent, State.completionSent, link, done]
  exact State.take_some _ _ awake

/-- Settles O37: the oldest place on the list is that of one live entry. -/
theorem completionsSentOldestFirst : Obligations.CompletionsSentOldestFirst := by
  intro s p awake creditMayGo turn
  refine ⟨fun other => exec_completionBegin_idle (mt (s.completionTurn_iff p).1 other),
    fun sound oldest rest done => ?_⟩
  have held := (s.workSound_iff.1 sound).held
  obtain ⟨e, mem, rfl, rfl⟩ := held.listed_entry (x := oldest) (done ▸ List.mem_cons_self ..)
  refine ⟨fun begins => ⟨e, mem, rfl, ?_⟩, fun message link => ?_⟩
  · exact exec_completionBegin_turn awake ((s.completionTurn_iff _).2 begins) done
      (State.entryAt_of_mem held.places mem)
  · rw [exec_completionSent_sending awake link done,
      State.freeEntry_of_mem (by simpa using held.places) (by simpa using mem)]
    cases e.port <;> rfl

end Sys2Proof.Machine
end

section
/-! SUPPORT. What retirement and an accepted write do to each line of a sound pool (O10, O19, O36, O58). -/

namespace Sys2Proof.Machine

section Lines

variable {W : Addr → Prop} {ra : ReadAhead} {i : LineId} {l : Line}

/-! ## Retirement, line by line -/

/-- The fate of a line that leaves its stream (the table of R75). -/
theorem Line.released_eq (l : Line) : l.released =
    (match l.state with
      | .valid _ _ => none
      | .pending _ => if l.attached = [] then none else some { l with owner := none }
      | .fetching => some { l with owner := none }) := by
  unfold Line.released
  cases l.state with
  | pending _ => simp only [List.isEmpty_iff]
  | fetching => rfl
  | valid _ _ => rfl

/-- A stream lists exactly the lines that name it their owner (R70). -/
theorem ReadAhead.Lawful.mem_owned (lawful : ra.Lawful W) (line : ra.lines[i] = some l) {k : StreamId} {st : Stream}
    (stream : ra.streams[k] = some st) : i ∈ st.owned ↔ l.owner = some k := by
  constructor
  · intro mem
    obtain ⟨m, line', own⟩ := lawful.owned k st i stream mem
    rw [line] at line'
    cases line'
    exact own
  · intro own
    obtain ⟨st', stream', mem⟩ := lawful.owner i l k line own
    rw [stream] at stream'
    cases stream'
    exact mem

/-- The owner of the line is an ACTIVE stream of which `f` holds. -/
def ReadAhead.OwnerHas (ra : ReadAhead) (f : Stream → Bool) (l : Line) : Prop :=
  ∃ k st, l.owner = some k ∧ ra.streams[k] = some st ∧ f st = true

/-- The streams of which `f` holds list exactly the lines whose owner is one of them. -/
theorem ReadAhead.Lawful.listed_iff (lawful : ra.Lawful W) (line : ra.lines[i] = some l) (f : Stream → Bool) :
    (∃ k : StreamId, (ra.streams[k].any fun st => f st && decide (i ∈ st.owned)) = true) ↔ ra.OwnerHas f l := by
  simp only [Option.any_eq_true, Bool.and_eq_true, decide_eq_true_eq]
  constructor
  · rintro ⟨k, st, stream, holds, mem⟩
    exact ⟨k, st, (lawful.mem_owned line stream).1 mem, stream, holds⟩
  · rintro ⟨k, st, own, stream, holds⟩
    exact ⟨k, st, stream, holds, (lawful.mem_owned line stream).2 own⟩

/-- A retirement releases the lines whose owner it retires (R75, R87). -/
theorem ReadAhead.Lawful.retireWhere_released (lawful : ra.Lawful W) (line : ra.lines[i] = some l) {f : Stream → Bool}
    (retires : ra.OwnerHas f l) : (ra.retireWhere f).lines[i] = l.released := by
  rw [ReadAhead.retireWhere_lines, if_pos ((lawful.listed_iff line f).2 retires), line, Option.bind_some]

/-- A retirement leaves every other line. -/
theorem ReadAhead.Lawful.retireWhere_kept (lawful : ra.Lawful W) (line : ra.lines[i] = some l) {f : Stream → Bool}
    (spares : ¬ ra.OwnerHas f l) : (ra.retireWhere f).lines[i] = some l := by
  rw [ReadAhead.retireWhere_lines, if_neg (mt (lawful.listed_iff line f).1 spares), line]

/-- A FREE line stays FREE when streams retire. -/
theorem ReadAhead.retireWhere_free (free : ra.lines[i] = none) (f : Stream → Bool) :
    (ra.retireWhere f).lines[i] = none := by
  rw [ReadAhead.retireWhere_lines, free, Option.bind_none, ite_self]

@[simp] theorem ReadAhead.mapLines_nextFetch (ra : ReadAhead) (f : Line → Option Line) :
    (ra.mapLines f).nextFetch = ra.nextFetch := rfl

/-! ## An accepted write, line by line -/

/-- Stream `k` owns a line of the written target line. -/
def ReadAhead.Struck (ra : ReadAhead) (written : Addr) (k : StreamId) : Prop :=
  ∃ (i : LineId) (l : Line), ra.lines[i] = some l ∧ l.target = written ∧ l.owner = some k

theorem ReadAhead.Lawful.ownsTarget_iff (lawful : ra.Lawful W) {k : StreamId} {st : Stream}
    (stream : ra.streams[k] = some st) (written : Addr) :
    ra.ownsTarget written st = true ↔ ra.Struck written k := by
  unfold ReadAhead.ownsTarget
  simp only [List.any_eq_true, ReadAhead.lineIs_true, decide_eq_true_eq]
  constructor
  · rintro ⟨i, mem, l, line, target⟩
    exact ⟨i, l, line, target, (lawful.mem_owned line stream).1 mem⟩
  · rintro ⟨i, l, line, target, own⟩
    exact ⟨i, (lawful.mem_owned line stream).2 own, l, line, target⟩

/-- The line with the stale mark that an accepted write gives (R86). -/
def Line.marked (written : Addr) (l : Line) : Line :=
  if l.target = written ∧ l.isValid = false then { l with stale := true } else l

theorem Line.marked_owner (written : Addr) (l : Line) : (l.marked written).owner = l.owner := by
  unfold Line.marked
  split <;> rfl

theorem Line.marked_struck {written : Addr} (target : l.target = written) (invalid : l.isValid = false) :
    l.marked written = { l with stale := true } :=
  if_pos ⟨target, invalid⟩

theorem Line.marked_valid {written : Addr} (valid : l.isValid = true) : l.marked written = l :=
  if_neg fun h => Bool.false_ne_true (h.2.symm.trans valid)

theorem Line.marked_other {written : Addr} (other : l.target ≠ written) : l.marked written = l :=
  if_neg fun h => other h.1

/-- The owner of the line owns a line of the written target line. -/
def ReadAhead.OwnerStruck (ra : ReadAhead) (written : Addr) (l : Line) : Prop :=
  ∃ k, l.owner = some k ∧ ra.Struck written k

/-- The owner of a line is retired by an accepted write exactly when it is struck. -/
theorem ReadAhead.Lawful.ownerHas_marked (lawful : ra.Lawful W) (line : ra.lines[i] = some l) (written : Addr) :
    (ra.mapLines (Line.staled written)).OwnerHas (ra.ownsTarget written) (l.marked written) ↔
      ra.OwnerStruck written l := by
  unfold ReadAhead.OwnerHas
  rw [Line.marked_owner, ReadAhead.mapLines_streams]
  constructor
  · rintro ⟨k, st, own, stream, owns⟩
    exact ⟨k, own, (lawful.ownsTarget_iff stream written).1 owns⟩
  · rintro ⟨k, own, struck⟩
    obtain ⟨st, stream, _⟩ := lawful.owner i l k line own
    exact ⟨k, st, own, stream, (lawful.ownsTarget_iff stream written).2 struck⟩

theorem ReadAhead.struck_nextFetch (ra : ReadAhead) (written : Addr) :
    (ra.struck written).nextFetch = ra.nextFetch := by
  rw [ReadAhead.struck, ReadAhead.mapLines_nextFetch, ReadAhead.retireWhere_nextFetch, ReadAhead.mapLines_nextFetch]

theorem ReadAhead.struck_free (free : ra.lines[i] = none) (written : Addr) : (ra.struck written).lines[i] = none := by
  have staled : (ra.mapLines (Line.staled written)).lines[i] = none := by
    rw [ReadAhead.mapLines_lines, free, Option.bind_none]
  rw [ReadAhead.struck, ReadAhead.mapLines_lines, ReadAhead.retireWhere_free staled, Option.bind_none]

theorem ReadAhead.staled_line (line : ra.lines[i] = some l) (written : Addr) :
    (ra.mapLines (Line.staled written)).lines[i] = some (l.marked written) := by
  rw [ReadAhead.mapLines_lines, line]
  rfl

/-- The stale mark, the release by a struck owner, and the cancellation (R86). -/
theorem ReadAhead.Lawful.struck_released (lawful : ra.Lawful noTarget) (line : ra.lines[i] = some l) {written : Addr}
    (struck : ra.OwnerStruck written l) :
    (ra.struck written).lines[i] = (l.marked written).released.bind (Line.cancelStale written) := by
  rw [ReadAhead.struck, ReadAhead.mapLines_lines, (lawful.staled written).retireWhere_released
    (ReadAhead.staled_line line written) ((lawful.ownerHas_marked line written).2 struck)]

/-- The stale mark and the cancellation of a line whose owner stays, or that has none (R86). -/
theorem ReadAhead.Lawful.struck_kept (lawful : ra.Lawful noTarget) (line : ra.lines[i] = some l) {written : Addr}
    (spared : ¬ ra.OwnerStruck written l) : (ra.struck written).lines[i] = (l.marked written).cancelStale written := by
  rw [ReadAhead.struck, ReadAhead.mapLines_lines, (lawful.staled written).retireWhere_kept
    (ReadAhead.staled_line line written) (mt (lawful.ownerHas_marked line written).1 spared), Option.bind_some]

/-- A cancellation takes a stale PENDING line without attached reads (R86). -/
theorem Line.cancelStale_other {written : Addr} (other : l.target ≠ written) : l.cancelStale written = some l :=
  if_neg fun h => other h.1

/-- A line of the written target line: VALID and PENDING lines nobody reads become FREE, the others stay, stale and
ownerless (R86). -/
theorem ReadAhead.Lawful.struck_target (lawful : ra.Lawful noTarget) (line : ra.lines[i] = some l) {written : Addr}
    (target : l.target = written) : (ra.struck written).lines[i] =
      (match l.state with
        | .valid _ _ => none
        | .pending _ => if l.attached = [] then none else some { l with stale := true, owner := none }
        | .fetching => some { l with stale := true, owner := none }) := by
  have struck_of_owner {k : StreamId} (own : l.owner = some k) : ra.OwnerStruck written l :=
    ⟨k, own, i, l, line, target, own⟩
  have spared_of_none (loose : l.owner = none) : ¬ ra.OwnerStruck written l := by
    rintro ⟨k, own, _⟩
    rw [loose] at own
    cases own
  cases state : l.state with
  | valid poison data =>
    have valid : l.isValid = true := by simp only [Line.isValid, state]
    obtain ⟨owned, _⟩ := (lawful.lines i l line).valid valid
    obtain ⟨k, own⟩ := Option.isSome_iff_exists.1 owned
    rw [lawful.struck_released line (struck_of_owner own), Line.marked_valid valid, Line.released_eq, state,
      Option.bind_none]
  | pending deadline =>
    have marked := Line.marked_struck target (l := l) (by simp only [Line.isValid, state])
    cases own : l.owner with
    | none =>
      rw [lawful.struck_kept line (spared_of_none own), marked]
      simp [Line.cancelStale, target, Line.isPending, state, own]
    | some k =>
      rw [lawful.struck_released line (struck_of_owner own), marked, Line.released_eq]
      simp only [state]
      split
      · rfl
      · rename_i read
        simp [Line.cancelStale, read]
  | fetching =>
    have marked := Line.marked_struck target (l := l) (by simp only [Line.isValid, state])
    cases own : l.owner with
    | none =>
      rw [lawful.struck_kept line (spared_of_none own), marked]
      simp [Line.cancelStale, Line.isPending, state, own]
    | some k =>
      rw [lawful.struck_released line (struck_of_owner own), marked, Line.released_eq]
      simp [Line.cancelStale, Line.isPending, state]

/-- A line of another target line is released with its owner (R86). -/
theorem ReadAhead.Lawful.struck_other_released (lawful : ra.Lawful noTarget) (line : ra.lines[i] = some l)
    {written : Addr} (other : l.target ≠ written) (struck : ra.OwnerStruck written l) :
    (ra.struck written).lines[i] = l.released := by
  rw [lawful.struck_released line struck, Line.marked_other other]
  cases becomes : l.released with
  | none => rfl
  | some l' =>
    obtain ⟨rfl, _⟩ := Line.released_some becomes
    exact Line.cancelStale_other other

/-- A line of another target line whose owner stays, or that has none, stays as it is (R86). -/
theorem ReadAhead.Lawful.struck_other_kept (lawful : ra.Lawful noTarget) (line : ra.lines[i] = some l)
    {written : Addr} (other : l.target ≠ written) (spared : ¬ ra.OwnerStruck written l) :
    (ra.struck written).lines[i] = some l := by
  rw [lawful.struck_kept line spared, Line.marked_other other, Line.cancelStale_other other]

/-- The streams left by an accepted write: those that own no line of the written target line (R86, R87). -/
theorem ReadAhead.Lawful.struck_stream (lawful : ra.Lawful W) (written : Addr) (k : StreamId) :
    (ra.Struck written k → (ra.struck written).streams[k] = none) ∧
      (¬ ra.Struck written k → (ra.struck written).streams[k] = ra.streams[k]) := by
  rw [ReadAhead.struck, ReadAhead.mapLines_streams, ReadAhead.retireWhere_streams, ReadAhead.mapLines_streams]
  cases stream : ra.streams[k] with
  | none => exact ⟨fun _ => rfl, fun _ => rfl⟩
  | some st =>
    rw [← lawful.ownsTarget_iff stream]
    exact ⟨fun owns => by simp [Option.filter, owns], fun owns => by simp [Option.filter, owns]⟩

end Lines

/-- Settles O19: each line is marked, released by a retired owner and cancelled; in a sound pool an owner is retired
exactly when it owns a line of the target, and a VALID line has one. -/
theorem writeInvalidatesPoolLines : Obligations.WriteInvalidatesPoolLines := by
  intro s env written sound
  have lawful := (s.poolSound_iff.1 sound).lawful
  refine ⟨s.readAhead.struck written, rfl, ?_, fun k => lawful.struck_stream written k, fun i =>
    ⟨fun free => ReadAhead.struck_free free written, fun l line => ⟨fun target => ?_, fun other k own struck => ?_,
      fun other spared => ?_⟩⟩⟩
  · exact s.readAhead.struck_nextFetch written
  · exact (lawful.struck_target line target).trans (by cases l.state <;> rfl)
  · exact lawful.struck_other_released line other ⟨k, own, struck⟩
  · exact lawful.struck_other_kept line other fun ⟨k, own, struck⟩ => spared k own struck

end Sys2Proof.Machine
end

section
/-! SUPPORT. What a queued write leaves in the pool, through every operation of the read-ahead unit (O58). -/

namespace Sys2Proof.Machine

/-- A line that gives no later read data older than the write with this place and target line: it is not VALID, and it
is stale or waits, PENDING, for the write (R80, R86). -/
def Line.Behind (place : Nat) (written : Addr) (l : Line) : Prop :=
  l.target = written → l.isValid = false ∧ (l.stale = true ∨ (l.isPending = true ∧ place ∈ l.horizon))

/-- Every line is behind the write. -/
def ReadAhead.Behind (place : Nat) (written : Addr) (ra : ReadAhead) : Prop :=
  ∀ (i : LineId) (l : Line), ra.lines[i] = some l → l.Behind place written

/-- Every line is behind every queued write. -/
def State.BehindQueue (s : State) : Prop :=
  ∀ r ∈ s.queue, s.readAhead.Behind r.place r.line

/-! ## The law as it is computed -/

theorem ReadAhead.lineAfter_iff (ra : ReadAhead) (r : WriteRecord) (i : LineId) : ra.lineAfter r i = true ↔
    ∀ l, ra.lines[i] = some l → l.Behind r.place r.line := by
  unfold ReadAhead.lineAfter Line.Behind
  cases ra.lines[i] with
  | none => simp
  | some l =>
    simp only [Bool.or_eq_true, Bool.not_eq_true', Bool.and_eq_true, decide_eq_false_iff_not,
      List.contains_iff_mem, Option.some.injEq, forall_eq']
    rw [imp_iff_not_or]

theorem State.poolBehindQueue_iff (s : State) : s.poolBehindQueue = true ↔ s.Ordered ∧ s.Pooled ∧ s.BehindQueue := by
  unfold State.poolBehindQueue State.BehindQueue ReadAhead.Behind
  simp only [Bool.and_eq_true, List.all_eq_true, State.orderSound_iff, State.poolSound_iff, ReadAhead.lineAfter_iff,
    mem_allLines, forall_const, and_assoc]

/-! ## One line -/

section Behind

variable {place : Nat} {written : Addr} {l l' : Line} {ra : ReadAhead}

/-- A line keeps its target and its state, and loses neither its stale mark nor the write from its horizon. -/
theorem Line.Behind.of_same (h : l.Behind place written) (target : l'.target = l.target) (state : l'.state = l.state)
    (stale : l.stale = true → l'.stale = true) (horizon : place ∈ l.horizon → place ∈ l'.horizon) :
    l'.Behind place written := by
  intro same
  obtain ⟨invalid, waits⟩ := h (target.symm.trans same)
  have valid_eq : l'.isValid = l.isValid := by unfold Line.isValid; rw [state]
  have pending_eq : l'.isPending = l.isPending := by unfold Line.isPending; rw [state]
  exact ⟨valid_eq.trans invalid, waits.imp stale fun ⟨pending, mem⟩ => ⟨pending_eq.trans pending, horizon mem⟩⟩

/-- A line that is not VALID and that the write marked stale, or else has another target. -/
theorem Line.Behind.of_stale (invalid : l'.isValid = false) (stale : l'.target = written → l'.stale = true) :
    l'.Behind place written :=
  fun target => ⟨invalid, .inl (stale target)⟩

/-- A line on its way that is behind a write of its target line is stale. -/
theorem Line.Behind.stale_of_fetching (h : l.Behind place written) (fetching : l.state = .fetching)
    (target : l.target = written) : l.stale = true := by
  obtain ⟨_, stale | ⟨pending, _⟩⟩ := h target
  · exact stale
  · exact absurd fetching (Line.not_fetching_of_pending pending)

theorem Line.Behind.released (h : l.Behind place written) (becomes : l.released = some l') :
    l'.Behind place written := by
  obtain ⟨rfl, _⟩ := Line.released_some becomes
  exact h.of_same rfl rfl id id

/-! ## Operations of the pool -/

theorem ReadAhead.Behind.setLine (h : ra.Behind place written) (i : LineId) {o : Option Line}
    (line : ∀ l, o = some l → l.Behind place written) : (ra.setLine i o).Behind place written := by
  intro j l found
  rw [ReadAhead.setLine_lines] at found
  split at found
  · exact line l found
  · exact h j l found

theorem ReadAhead.Behind.free (h : ra.Behind place written) (i : LineId) : (ra.setLine i none).Behind place written :=
  h.setLine i fun _ found => by cases found

/-- A line changes and stays behind the write. -/
theorem ReadAhead.Behind.change (h : ra.Behind place written) (i : LineId) (line : l'.Behind place written) :
    (ra.setLine i (some l')).Behind place written :=
  h.setLine i fun _ found => by cases found; exact line

theorem ReadAhead.Behind.mapLines (h : ra.Behind place written) {f : Line → Option Line}
    (each : ∀ l l', f l = some l' → l.Behind place written → l'.Behind place written) :
    (ra.mapLines f).Behind place written := by
  intro i l' found
  rw [ReadAhead.mapLines_lines, Option.bind_eq_some_iff] at found
  obtain ⟨l, line, becomes⟩ := found
  exact each l l' becomes (h i l line)

theorem ReadAhead.Behind.releaseAll (h : ra.Behind place written) (is : List LineId) :
    (ra.releaseAll is).Behind place written := by
  intro i l' found
  rw [ReadAhead.releaseAll_lines] at found
  split at found
  · obtain ⟨l, line, becomes⟩ := Option.bind_eq_some_iff.1 found
    exact (h i l line).released becomes
  · exact h i l' found

theorem ReadAhead.Behind.setStream (h : ra.Behind place written) (k : StreamId) (st : Option Stream) :
    (ra.setStream k st).Behind place written := h

theorem ReadAhead.Behind.retire (h : ra.Behind place written) (k : StreamId) : (ra.retire k).Behind place written := by
  unfold ReadAhead.retire
  split
  · exact h
  · exact (h.releaseAll _).setStream k none

theorem ReadAhead.Behind.retireWhere (h : ra.Behind place written) (f : Stream → Bool) :
    (ra.retireWhere f).Behind place written :=
  ReadAhead.retireWhere_keeps (ReadAhead.Behind place written) (fun _ k hk => hk.retire k) f ra h

/-- A later write of any target line leaves the lines behind the earlier one. -/
theorem ReadAhead.Behind.struck (h : ra.Behind place written) (later : Addr) :
    (ra.struck later).Behind place written := by
  refine ((h.mapLines fun l l' becomes behind => ?_).retireWhere _).mapLines fun l l' becomes behind => ?_
  · unfold Line.staled at becomes
    cases becomes
    split
    · exact behind.of_same rfl rfl (fun _ => rfl) id
    · exact behind
  · unfold Line.cancelStale at becomes
    split at becomes <;> cases becomes
    exact behind

/-- The write itself puts every line behind it: none of its target line stays VALID or fresh (R86). -/
theorem ReadAhead.Lawful.struck_behind (lawful : ra.Lawful noTarget) (place : Nat) (written : Addr) :
    (ra.struck written).Behind place written := by
  intro i l' found
  cases line : ra.lines[i] with
  | none =>
    rw [ReadAhead.struck_free line] at found
    cases found
  | some l =>
    by_cases target : l.target = written
    · rw [lawful.struck_target line target] at found
      split at found
      · cases found
      · rename_i state
        split at found <;> cases found
        exact .of_stale (by simp only [Line.isValid, state]) fun _ => rfl
      · rename_i state
        cases found
        exact .of_stale (by simp only [Line.isValid, state]) fun _ => rfl
    · have kept : l'.target = l.target := by
        by_cases struck : ra.OwnerStruck written l
        · rw [lawful.struck_other_released line target struck] at found
          obtain ⟨rfl, _⟩ := Line.released_some found
          rfl
        · rw [lawful.struck_other_kept line target struck] at found
          cases found
          rfl
      exact fun same => absurd (kept.symm.trans same) target

theorem ReadAhead.Behind.shed (h : ra.Behind place written) (p : PortId) (gone : List Nat) :
    (ra.shed p gone).Behind place written := by
  refine ((h.mapLines fun l l' becomes behind => ?_).retireWhere _).mapLines fun l l' becomes behind => ?_
  · cases becomes
    exact behind.of_same rfl rfl id id
  · unfold Line.cancelUnwanted at becomes
    split at becomes <;> cases becomes
    exact behind

theorem ReadAhead.Behind.attach (h : ra.Behind place written) (i : LineId) (read : Nat) :
    (ra.attach i read).Behind place written := by
  unfold ReadAhead.attach
  split
  · exact h
  · rename_i l line
    exact h.change i ((h i l line).of_same rfl rfl id id)

/-- Other records leave the fetch horizons; the write itself stays in them. -/
theorem ReadAhead.Behind.dropRecords (h : ra.Behind place written) {departed : List Nat} (stays : place ∉ departed) :
    (ra.dropRecords departed).Behind place written := by
  refine h.mapLines fun l l' becomes behind => ?_
  cases becomes
  exact behind.of_same rfl rfl id fun mem => List.mem_filter.2 ⟨mem, by simpa using stays⟩

/-- The end of a fetch: a line that becomes VALID was not stale, so that no queued write has its target line. -/
theorem ReadAhead.Behind.lineEnd (h : ra.Behind place written) {i : LineId} {ra' : ReadAhead}
    (line : ra.lines[i] = some l) (fetching : l.state = .fetching) (ends : LineEnd ra i l ra') :
    ra'.Behind place written := by
  cases ends with
  | valid poison data owned fresh =>
    refine h.change i fun target => ?_
    have stale := (h i l line).stale_of_fetching fetching target
    rw [fresh] at stale
    cases stale
  | unwanted _ => exact h.free i
  | failed =>
    refine ReadAhead.Behind.free ?_ i
    unfold ReadAhead.retireOwner
    split
    · exact h
    · exact h.retire _

/-- A new line takes every queued write into its fetch horizon (R76). -/
theorem ReadAhead.Behind.unitMove {s : State} (h : s.readAhead.Behind place written) (queued : place ∈ s.queuedPlaces)
    {ra' : ReadAhead} (unit : UnitMove s ra') : ra'.Behind place written := by
  cases unit with
  | retired k => exact h.retire k
  | trimmed k gone kept next last _ _ => exact (h.releaseAll gone).setStream k _
  | opened k st _ _ _ _ _ _ => exact h.setStream k _
  | created env k i horizon _ _ _ =>
    intro j l found
    rw [ReadAhead.createLine_lines] at found
    split at found
    · cases found
      refine fun _ => ⟨rfl, .inr ⟨rfl, ?_⟩⟩
      rw [newLine, horizon]
      exact queued
    · exact h j l found

end Behind

/-! ## Moves -/

section Moves

variable {s u : State}

theorem State.BehindQueue.of_same (behind : s.BehindQueue) (queue : u.queue = s.queue)
    (unit : u.readAhead = s.readAhead) : u.BehindQueue := by
  unfold State.BehindQueue
  rw [queue, unit]
  exact behind

/-- Each queued record was queued before, with its place and target line, and the lines stay behind it. -/
theorem State.BehindQueue.of_records (behind : s.BehindQueue)
    (records : ∀ r' ∈ u.queue, ∃ r ∈ s.queue, r.place = r'.place ∧ r.line = r'.line ∧
      (s.readAhead.Behind r.place r.line → u.readAhead.Behind r.place r.line)) : u.BehindQueue := by
  intro r' mem'
  obtain ⟨r, mem, place, line, kept⟩ := records r' mem'
  rw [← place, ← line]
  exact kept (behind r mem)

theorem State.BehindQueue.of_pool (behind : s.BehindQueue) (queue : u.queue = s.queue)
    (kept : ∀ r ∈ s.queue, s.readAhead.Behind r.place r.line → u.readAhead.Behind r.place r.line) : u.BehindQueue :=
  behind.of_records fun r mem => ⟨r, queue ▸ mem, rfl, rfl, kept r (queue ▸ mem)⟩

theorem State.BehindQueue.of_empty (empty : u.queue = []) : u.BehindQueue := by
  intro r mem
  rw [empty] at mem
  cases mem

/-- The head record changes its state, its wait count or nothing. -/
theorem State.BehindQueue.of_head (behind : s.BehindQueue) {head head' : WriteRecord} {rest : List WriteRecord}
    (before : s.queue = head :: rest) (after : u.queue = head' :: rest) (unit : u.readAhead = s.readAhead)
    (place : head'.place = head.place) (line : head'.line = head.line) : u.BehindQueue := by
  refine behind.of_records fun r mem => ?_
  rw [unit, before]
  rw [after] at mem
  rcases List.mem_cons.1 mem with rfl | old
  · exact ⟨head, List.mem_cons_self, place.symm, line.symm, id⟩
  · exact ⟨r, List.mem_cons_of_mem _ old, rfl, rfl, id⟩

/-- The records that depart in one event have other places than those that stay. -/
theorem State.Ordered.place_not_departed (ordered : s.Ordered) {head r : WriteRecord} {rest : List WriteRecord}
    (queue : s.queue = head :: rest) (g : WriteRecord → Bool) (d : Departure) (mem : r ∈ rest.filter fun x => !g x) :
    r.place ∉ (((head, d) :: (rest.filter g).map fun x => (x, .withdrawn)) : List Report).map
      fun x => x.1.place := by
  have once := ordered.queue
  rw [s.queuedPlaces_eq, queue, List.map_cons, List.pairwise_cons] at once
  obtain ⟨first, later⟩ := once
  obtain ⟨mem, stays⟩ := List.mem_filter.1 mem
  simp only [List.map_cons, List.map_map, List.mem_cons, List.mem_map, List.mem_filter, Function.comp_apply, not_or,
    not_exists, not_and, and_imp]
  refine ⟨(Nat.ne_of_lt (first r.place (List.mem_map_of_mem mem))).symm, fun x memx gone same => ?_⟩
  have distinct : (rest.map WriteRecord.place).Nodup := later.imp Nat.ne_of_lt
  rw [List.inj_on_of_nodup_map distinct memx mem same] at gone
  rw [gone] at stays
  cases stays

theorem Told.behindQueue {f v : State} {i : SlotId} {owner : SlotOwner} {addr : Addr} {d : Timer}
    (told : Told s f owner v) (lawful : s.WorkLawful) (behind : s.BehindQueue)
    (busy : s.memPort.slots[i] = .busy owner addr d) (queue : f.queue = s.queue)
    (unit : f.readAhead = s.readAhead) : v.BehindQueue := by
  have same : f.BehindQueue := behind.of_same queue unit
  cases told with
  | nobody _ => exact same
  | ended place status data => exact same.of_same (by simp) (by simp)
  | waits n t _ _ => exact same.of_same rfl rfl
  | @departs head rest d g before =>
    refine same.of_records fun r mem => ?_
    rw [State.depart_queue] at mem
    refine ⟨r, ?_, rfl, rfl, fun lines => ?_⟩
    · rw [queue, before]
      exact List.mem_cons_of_mem _ (List.mem_filter.1 mem).1
    · have kept := lines.dropRecords (lawful.ordered.place_not_departed before g d mem)
      rcases f.depart_readAhead _ _ with h | h <;> rw [h]
      · exact kept
      · exact kept.retireWhere _
  | headWaits n t before => exact same.of_head (queue.trans before) rfl rfl rfl rfl
  | @fetchEnds k l ra status data line ends =>
    obtain ⟨l', line', fetching, _⟩ := lawful.held.slots.fetches i k addr _ busy
    rw [line] at line'
    cases line'
    refine behind.of_pool ?_ fun r _ lines => lines.lineEnd line fetching ends
    exact (foldl_keeps _ State.queue (fun _ _ => by simp) _ _).trans queue
  | @fetchWaits k l n t line =>
    obtain ⟨l', line', fetching, _⟩ := lawful.held.slots.fetches i k addr _ busy
    rw [line] at line'
    cases line'
    exact behind.of_pool queue fun r _ lines => lines.change k
      (.of_stale rfl fun target => (lines k l line).stale_of_fetching fetching target)

/-- A granted line waits for no queued write: one behind a write of its target line is stale already (R80, R81). -/
theorem State.BehindQueue.granted (behind : s.BehindQueue) {slot : SlotId} {g : Grant}
    (choice : s.chooseGrant = some g) : (s.grantTo slot g).BehindQueue := by
  cases g with
  | write w =>
    obtain ⟨⟨rest, queue⟩, _⟩ := State.headCandidate_some (State.chooseGrant_write choice)
    rw [State.grantTo_write queue]
    exact behind.of_head queue rfl rfl rfl rfl
  | demand e r => exact behind.of_same rfl rfl
  | fetch i =>
    rw [State.grantTo_fetch]
    obtain ⟨l, line, eligible⟩ := ReadAhead.lineIs_true.1
      (ReadAhead.earliest_some (State.chooseGrant_fetch_candidate choice)).1
    obtain ⟨_, clear⟩ := Bool.and_eq_true_iff.1 eligible
    obtain ⟨noRecord, _⟩ := (relaxedHolds_iff _ _ _ _).1 clear
    refine behind.of_pool rfl fun r mem lines => ?_
    dsimp only
    rw [ReadAhead.issue_of_some line]
    refine lines.change i (.of_stale rfl fun target => ?_)
    obtain ⟨_, stale | ⟨_, waits⟩⟩ := lines i l line target
    · exact stale
    · exact absurd target.symm (noRecord r mem waits)

theorem Move.keeps_behindQueue (move : Move s u) (lawful : s.WorkLawful) (behind : s.BehindQueue) : u.BehindQueue := by
  cases move with
  | quiet same =>
    obtain ⟨queue, _, _, unit, _⟩ := State.fields_of_bare same
    exact behind.of_same queue unit
  | table t _ _ => exact behind.of_same rfl rfl
  | params new _ _ =>
    rw [State.replaceParams_eq]
    exact behind.of_same rfl rfl
  | powerOn => exact .of_empty s.powerOnValues_blank.queue
  | warmReset => exact .of_empty s.warmReset_blank.queue
  | configured _ _ _ _ _ _ _ _ => exact behind.of_same rfl rfl
  | linkUp p => exact behind.of_same (by simp) (by simp)
  | cut p state _ _ =>
    refine behind.of_records fun r' mem' => ?_
    rw [State.cut, State.setPort_queue] at mem'
    obtain ⟨r, mem, rfl⟩ := List.mem_map.1 mem'
    obtain ⟨place, _, _, _, line⟩ := r.unlinked_fields p
    refine ⟨r, mem, place.symm, line.symm, fun lines => ?_⟩
    rw [State.cut, State.setPort_readAhead]
    exact lines.shed _ _
  | readJoins _ _ _ => exact behind.of_same (by simp [State.addRead]) (by simp [State.addRead])
  | doneJoins _ _ _ _ _ _ _ _ _ => exact behind.of_same (by simp) (by simp)
  | attaches _ _ _ _ _ =>
    exact behind.of_pool (by simp [State.addRead]) fun _ _ lines => lines.attach _ _
  | writeDropped _ _ _ => exact behind.of_same (by simp) (by simp)
  | writeJoins r _ _ _ _ _ _ =>
    intro x mem
    rcases List.mem_append.1 mem with old | new
    · exact (behind x old).struck r.line
    · cases List.mem_singleton.1 new
      exact lawful.pooled.lawful.struck_behind _ _
  | fenceJoins _ _ _ _ => exact behind.of_same (by simp) (by simp)
  | granted _ choice => exact behind.granted choice
  | told busy _ told weighed =>
    have ends := told.behindQueue lawful behind busy rfl rfl
    obtain ⟨_, rfl⟩ | rfl := weighed
    · exact ends
    · exact ends.of_same rfl rfl
  | reclaimed _ _ => exact behind.of_same rfl rfl
  | headReady queue _ => exact behind.of_head queue rfl rfl rfl rfl
  | readReady _ _ => exact behind.of_same rfl rfl
  | @lineReady i l t line state =>
    refine behind.of_pool rfl fun r _ lines => lines.change i fun target => ?_
    obtain ⟨_, waits⟩ := lines i l line target
    exact ⟨rfl, waits.imp_right fun ⟨_, mem⟩ => ⟨rfl, mem⟩⟩
  | pool unit =>
    exact behind.of_pool rfl fun r mem lines => lines.unitMove (List.mem_map_of_mem mem) unit
  | completionBegun p _ _ => exact behind.of_same (by simp) (by simp)
  | completionSent _ _ =>
    refine behind.of_same ?_ ?_
    · unfold State.freeEntry
      split <;> simp
    · unfold State.freeEntry
      split <;> simp
  | creditBegun p _ => exact behind.of_same (by simp) (by simp)
  | linkIdle p => exact behind.of_same (by simp) (by simp)

end Moves

/-- Settles O58: every move keeps the pool's law. With each piece of work held once, a line that becomes VALID was on
its way and fresh, so no write of its target line is queued; an accepted write marks or frees the lines of its target,
and a new line takes all queued writes into its horizon, which only their departure takes out. -/
theorem stepKeepsPoolCoherent : Obligations.StepKeepsPoolCoherent := by
  refine ⟨stepKeeps_of_move _ State.poolSound_iff Move.keeps_pooled,
    stepKeeps_of_move (P := fun s => s.WorkLawful ∧ s.BehindQueue) _ (fun s => ?_) fun move h =>
      ⟨move.keeps_workLawful h.1, move.keeps_behindQueue h.1 h.2⟩⟩
  rw [Bool.and_eq_true, State.workSound_iff, State.poolBehindQueue_iff]
  exact ⟨fun ⟨lawful, _, _, behind⟩ => ⟨lawful, behind⟩,
    fun ⟨lawful, behind⟩ => ⟨lawful, lawful.ordered, lawful.pooled, behind⟩⟩

end Sys2Proof.Machine
end

section
/-! SUPPORT. The streams of the read-ahead unit: retirement, lookup, use, top-up and misses (O15 to O18, O36). -/

namespace Sys2Proof.Machine

/-! ## Retirement -/

/-- A line of a sound pool that no purged stream keeps is not VALID and ownerless (R92). -/
theorem ReadAhead.Lawful.purged_line {W : Addr → Prop} {ra : ReadAhead} (lawful : ra.Lawful W) {i : LineId} {l' : Line}
    (found : (ra.retireWhere fun _ => true).lines[i] = some l') : l'.isValid = false ∧ l'.owner = none := by
  rw [lawful.retireAll_lines, Option.bind_eq_some_iff] at found
  obtain ⟨l, line, becomes⟩ := found
  split at becomes
  · rename_i loose
    cases becomes
    refine ⟨Bool.eq_false_iff.2 fun valid => ?_, loose⟩
    obtain ⟨owned, _⟩ := (lawful.lines i l' line).valid valid
    rw [loose] at owned
    cases owned
  · obtain ⟨rfl, invalid, _⟩ := Line.released_some becomes
    exact ⟨invalid, rfl⟩

theorem ReadAhead.retire_lines {ra : ReadAhead} {k : StreamId} {st : Stream} (stream : ra.streams[k] = some st)
    (i : LineId) : (ra.retire k).lines[i] =
      if i ∈ st.owned then ra.lines[i].bind Line.released else ra.lines[i] := by
  rw [ReadAhead.retire_of_some stream, ReadAhead.setStream_lines, ReadAhead.releaseAll_lines]

/-- Settles O36: a retirement releases the lines its stream lists, and a purge is the retirement of every stream. -/
theorem retirementReleasesLines : Obligations.RetirementReleasesLines := by
  intro s k st sound stream
  have lawful := (s.poolSound_iff.1 sound).lawful
  obtain ⟨purge, free⟩ := s.readAhead.purge_eq s.fetchEnv
  refine ⟨?_, fun j other => ?_, fun i out => ?_, fun i l mem line => ?_, free, fun i l' found => ?_, Line.released_eq⟩
  · rw [ReadAhead.retire_streams, if_pos rfl]
  · rw [ReadAhead.retire_streams, if_neg other]
  · rw [ReadAhead.retire_lines stream, if_neg out]
  · rw [ReadAhead.retire_lines stream, if_pos mem, line]
    exact Line.released_eq l
  · rw [purge] at found
    exact lawful.purged_line found

/-! ## Lookup -/

theorem Line.isValid_iff (l : Line) : l.isValid = true ↔ ∃ poison data, l.state = .valid poison data := by
  unfold Line.isValid
  cases l.state <;> simp

section Lookup

variable {ra : ReadAhead} {p : PortId} {w : WindowId} {target : Addr} {i : LineId}

/-- A line of the target line whose owner is an ACTIVE stream of the port and the window (R71). -/
def ReadAhead.Considered (ra : ReadAhead) (p : PortId) (w : WindowId) (target : Addr) (i : LineId) (l : Line) : Prop :=
  ra.lines[i] = some l ∧ l.target = target ∧ ∃ k st, l.owner = some k ∧ ra.streams[k] = some st ∧
    st.port = p ∧ st.window = w

theorem ReadAhead.considers_lineIs_iff (f : Line → Bool) : (ra.considers p w target i && ra.lineIs f i) = true ↔
    ∃ l, ra.Considered p w target i l ∧ f l = true := by
  rw [Bool.and_eq_true, ReadAhead.lineIs_true, ReadAhead.considers_iff]
  constructor
  · rintro ⟨⟨l', k, st, line', own, stream, port, window, same⟩, l, line, holds⟩
    rw [line] at line'
    cases line'
    exact ⟨l', ⟨line, same, k, st, own, stream, port, window⟩, holds⟩
  · rintro ⟨l, ⟨line, same, k, st, own, stream, port, window⟩, holds⟩
    exact ⟨⟨l, k, st, line, own, stream, port, window, same⟩, l, line, holds⟩

/-- The earliest considered line of which `f` holds. -/
def ReadAhead.choice (ra : ReadAhead) (p : PortId) (w : WindowId) (target : Addr) (f : Line → Bool) : Option LineId :=
  ra.earliest fun i => ra.considers p w target i && ra.lineIs f i

theorem ReadAhead.choice_some {f : Line → Bool} (found : ra.choice p w target f = some i) :
    ∃ l, ra.Considered p w target i l ∧ f l = true ∧
      ∀ j m, ra.Considered p w target j m → f m = true → l.order ≤ m.order := by
  obtain ⟨holds, first⟩ := ReadAhead.earliest_some found
  obtain ⟨l, considered, holds⟩ := (ReadAhead.considers_lineIs_iff f).1 holds
  refine ⟨l, considered, holds, fun j m other holds' => ?_⟩
  have le := first j ((ReadAhead.considers_lineIs_iff f).2 ⟨m, other, holds'⟩)
  rwa [ReadAhead.orderOfLine_of_some considered.1, ReadAhead.orderOfLine_of_some other.1] at le

theorem ReadAhead.choice_none {f : Line → Bool} (found : ra.choice p w target f = none) (j : LineId) (m : Line)
    (considered : ra.Considered p w target j m) : f m = false := by
  refine Bool.eq_false_iff.2 fun holds => Bool.eq_false_iff.1 (ReadAhead.earliest_none.1 found j) ?_
  exact (ReadAhead.considers_lineIs_iff f).2 ⟨m, considered, holds⟩

/-- A line that a read may attach to: neither VALID nor stale (R71). -/
def Line.awaited (l : Line) : Bool :=
  !l.isValid && !l.stale

theorem Line.awaited_iff (l : Line) : l.awaited = true ↔ l.isValid = false ∧ l.stale = false := by
  rw [Line.awaited, Bool.and_eq_true, Bool.not_eq_true', Bool.not_eq_true']

/-- The lookup prefers a VALID line to one on its way (R71). -/
theorem ReadAhead.lookup_eq (ra : ReadAhead) (p : PortId) (w : WindowId) (target : Addr) : ra.lookup p w target =
    match ra.choice p w target Line.isValid, ra.choice p w target Line.awaited with
    | some i, _ => .hit i
    | none, some i => .attach i
    | none, none => .miss := by
  change (match ra.choice p w target Line.isValid with
    | some i => Lookup.hit i
    | none => match ra.choice p w target Line.awaited with
      | some i => .attach i
      | none => .miss) = _
  cases ra.choice p w target Line.isValid with
  | some i => rfl
  | none => cases ra.choice p w target Line.awaited <;> rfl

end Lookup

/-- Settles O15: the lookup takes the earliest VALID line it considers, else the earliest that is neither VALID nor
stale. -/
theorem lookupPrefersValidThenOldest : Obligations.LookupPrefersValidThenOldest := by
  intro ra p w target considered
  rw [ReadAhead.lookup_eq]
  cases valid : ra.choice p w target Line.isValid with
  | some i =>
    refine ⟨fun _ h => ?_, fun _ h => (nomatch h), fun h => (nomatch h), Line.isValid_iff⟩
    cases h
    exact ReadAhead.choice_some valid
  | none =>
    have none_valid := ReadAhead.choice_none valid
    cases way : ra.choice p w target Line.awaited with
    | some i =>
      refine ⟨fun _ h => (nomatch h), fun _ h => ?_, fun h => (nomatch h), Line.isValid_iff⟩
      cases h
      obtain ⟨l, found, awaited, first⟩ := ReadAhead.choice_some way
      obtain ⟨invalid, fresh⟩ := l.awaited_iff.1 awaited
      exact ⟨l, found, invalid, fresh, none_valid, fun j m other fresh' =>
        first j m other (m.awaited_iff.2 ⟨none_valid j m other, fresh'⟩)⟩
    | none =>
      refine ⟨fun _ h => (nomatch h), fun _ h => (nomatch h), fun _ j m other => ?_, Line.isValid_iff⟩
      have invalid := none_valid j m other
      have unawaited := ReadAhead.choice_none way j m other
      rw [Line.awaited, invalid] at unawaited
      exact ⟨invalid, by simpa using unawaited⟩

/-! ## One stream turned -/

/-- A stream that gives up some lines, and nothing else of the unit, is turned (R74, R75). -/
theorem ReadAhead.turned_release (ra : ReadAhead) (k : StreamId) (st : Stream) (gone : List LineId) :
    ra.turned ((ra.releaseAll gone).setStream k (some st)) k st gone := by
  refine ⟨?_, ?_, fun j other => ?_, fun i => ?_⟩
  · rw [ReadAhead.setStream_nextFetch, ReadAhead.releaseAll_nextFetch]
  · rw [ReadAhead.setStream_streams, if_pos rfl]
  · rw [ReadAhead.setStream_streams, if_neg other, ReadAhead.releaseAll_streams]
  · rw [ReadAhead.setStream_lines, ReadAhead.releaseAll_lines]

/-- A stream that is retired and opened again is turned: its lines are released (R79). -/
theorem ReadAhead.turned_retire (ra : ReadAhead) {k : StreamId} {old : Stream} (stream : ra.streams[k] = some old)
    (st : Stream) : ra.turned ((ra.retire k).setStream k (some st)) k st old.owned := by
  refine ⟨?_, ?_, fun j other => ?_, fun i => ?_⟩
  · rw [ReadAhead.setStream_nextFetch, ReadAhead.retire_nextFetch]
  · rw [ReadAhead.setStream_streams, if_pos rfl]
  · rw [ReadAhead.setStream_streams, if_neg other, ReadAhead.retire_streams, if_neg other]
  · rw [ReadAhead.setStream_lines, ReadAhead.retire_lines stream]

/-- After the top-up pass a turned stream has its lines first, then those that the pass added (R76). -/
theorem ReadAhead.turned.topUp {ra mid : ReadAhead} {k : StreamId} {st : Stream} {gone : List LineId}
    (turned : ra.turned mid k st gone) (env : FetchEnv) : ∃ added : List LineId, (mid.topUp env).streams[k] =
      some { st with owned := st.owned ++ added, nextLine := st.nextLine + 64 * added.length } := by
  obtain ⟨_, stream, _⟩ := turned
  exact (ReadAhead.topUp_streams mid env k).2 st stream

/-! ## Hits and attaches -/

/-- A list in which `i` stands: what comes before `i`, then `i`, then the rest. -/
theorem takeWhile_ne_append {xs : List LineId} {i : LineId} (mem : i ∈ xs) :
    ∃ kept, xs.dropWhile (fun j => j ≠ i) = i :: kept ∧ xs = xs.takeWhile (fun j => j ≠ i) ++ i :: kept := by
  have split := List.takeWhile_append_dropWhile (p := fun j => decide (j ≠ i)) (l := xs)
  cases rest : xs.dropWhile (fun j => decide (j ≠ i)) with
  | nil =>
    rw [List.dropWhile_eq_nil_iff] at rest
    simpa using rest i mem
  | cons j kept =>
    have stops := List.head?_dropWhile_not (fun j => decide (j ≠ i)) xs
    rw [rest] at stops
    obtain rfl : j = i := by simpa using stops
    exact ⟨kept, rfl, by rw [← rest, split]⟩

/-- Settles O16: the owner of the line gives up the lines before it, and the top-up pass adds lines at its end. -/
theorem hitAdvancesStream : Obligations.HitAdvancesStream := by
  intro s i l k st sound line own stream
  have lawful := (s.poolSound_iff.1 sound).lawful
  obtain ⟨kept, dropped, owned⟩ := takeWhile_ne_append ((lawful.mem_owned line stream).2 own)
  have used := ReadAhead.use_of_owner s.fetchEnv line own stream
  rw [dropped] at used
  have turned := s.readAhead.turned_release k { st with owned := i :: kept, lastUse := s.fetchEnv.now }
    (st.owned.takeWhile fun j => j ≠ i)
  obtain ⟨added, after⟩ := turned.topUp s.fetchEnv
  refine ⟨_, kept, _, owned, turned, used, ?_⟩
  rw [used]
  exact ⟨added, _, after, rfl, rfl, rfl, rfl, rfl, rfl⟩

/-! ## The top-up pass -/

theorem ReadAhead.isShort_iff (ra : ReadAhead) (windows : Vector Window 8) (k : StreamId) :
    ra.isShort windows k = true ↔ ∃ st, ra.streams[k] = some st ∧ st.owned.length < st.depth ∧
      windows[st.window].fields.targetBase.toNat ≤ st.nextLine ∧
      st.nextLine < windows[st.window].fields.targetBase.toNat + 4096 * 2 ^ windows[st.window].fields.sizeCode := by
  unfold ReadAhead.isShort
  cases ra.streams[k] with
  | none => simp
  | some st =>
    simp only [Stream.short, inTarget, Bool.and_eq_true, decide_eq_true_eq, Option.some.injEq, exists_eq_left']
    rfl

theorem ReadAhead.age_of_some {ra : ReadAhead} {k : StreamId} {st : Stream} (stream : ra.streams[k] = some st)
    (now : Time) : ra.age now k = (now - st.lastUse).toNat := by
  unfold ReadAhead.age
  rw [stream]
  rfl

/-- The stream with the least age among those of which `f` holds, the lowest-numbered among equals. -/
theorem ReadAhead.leastBy_age {ra : ReadAhead} {now : Time} {f : StreamId → Bool} {k : StreamId} {st : Stream}
    (stream : ra.streams[k] = some st) (holds : f k = true)
    (active : ∀ j, f j = true → ∃ other, ra.streams[j] = some other ∧
      ((now - st.lastUse).toNat < (now - other.lastUse).toNat ∨
        ((now - st.lastUse).toNat = (now - other.lastUse).toNat ∧ k ≤ j))) :
    leastBy (ra.age now) (allStreams.filter f) = some k := by
  refine leastBy_eq_some _ _ k (List.mem_filter.2 ⟨mem_allStreams k, holds⟩)
    (allStreams_rising.sublist List.filter_sublist) fun j mem => ?_
  obtain ⟨other, stream', least⟩ := active j (List.mem_filter.1 mem).2
  rwa [ReadAhead.age_of_some stream, ReadAhead.age_of_some stream']

theorem ReadAhead.freeLine_eq {ra : ReadAhead} {i : LineId} (free : ra.lines[i] = none)
    (lowest : ∀ j : LineId, j < i → ra.lines[j] ≠ none) : ra.freeLine = some i :=
  find?_eq_lowest allLines _ i (mem_allLines i) allLines_rising (by rw [free]; rfl) fun j below =>
    Bool.eq_false_iff.2 fun isNone => lowest j below (Option.isNone_iff_eq_none.1 isNone)

/-- Settles O18: the pass creates nothing without a FREE line or a short stream, and else is its first creation and the
pass that follows. -/
theorem topUpFeedsLatestReader : Obligations.TopUpFeedsLatestReader := by
  intro s ra env short age
  refine ⟨fun full => ?_, fun none_short => ?_, fun k st i shortest least free lowest => ?_⟩
  · apply ReadAhead.topUp_of_none
    unfold ReadAhead.topUpOnce
    rw [ReadAhead.freeLine_none.2 full]
    split
    · rename_i h
      cases h
    · rfl
  · apply ReadAhead.topUp_of_none
    have nobody : ra.nextShort env = none := by
      rw [ReadAhead.nextShort, leastBy_eq_none, List.filter_eq_nil_iff]
      intro k _ h
      obtain ⟨st, h⟩ := (ra.isShort_iff env.windows k).1 h
      exact none_short k st h
    rw [ReadAhead.topUpOnce, nobody]
  · apply ReadAhead.topUp_of_some
    have next : ra.nextShort env = some k :=
      ReadAhead.leastBy_age shortest.1 ((ra.isShort_iff env.windows k).2 ⟨st, shortest⟩) fun j h => by
        obtain ⟨other, h⟩ := (ra.isShort_iff env.windows j).1 h
        exact ⟨other, h.1, least j other h⟩
    rw [ReadAhead.topUpOnce, next, ReadAhead.freeLine_eq free lowest]
    simp only [shortest.1]
    rfl

/-! ## Misses -/

theorem ReadAhead.continues_iff (ra : ReadAhead) (p : PortId) (w : WindowId) (target : Addr) (k : StreamId) :
    ra.continues p w target k = true ↔ ∃ st, ra.streams[k] = some st ∧ st.port = p ∧ st.window = w ∧
      st.nextLine = target.toNat := by
  unfold ReadAhead.continues
  cases ra.streams[k] with
  | none => simp
  | some st => simp [and_assoc]

/-- The stream with the greatest age, the lowest-numbered among equals, when none is FREE (R79). -/
theorem ReadAhead.oldest_eq {ra : ReadAhead} {now : Time} {k : StreamId} {st : Stream}
    (busy : ∀ j : StreamId, ra.streams[j] ≠ none) (stream : ra.streams[k] = some st)
    (greatest : ∀ (j : StreamId) (other : Stream), ra.streams[j] = some other →
      (now - other.lastUse).toNat < (now - st.lastUse).toNat ∨
        ((now - other.lastUse).toNat = (now - st.lastUse).toNat ∧ k ≤ j)) : ra.oldest now = some k := by
  refine leastBy_eq_some _ _ k (mem_allStreams k) allStreams_rising fun j _ => ?_
  obtain ⟨other, stream'⟩ := Option.ne_none_iff_exists'.1 (busy j)
  have least := greatest j other stream'
  have bound := (now - st.lastUse).isLt
  rw [ReadAhead.age_of_some stream, ReadAhead.age_of_some stream']
  rcases least with younger | ⟨same, le⟩
  · exact .inl (by omega)
  · exact .inr ⟨by omega, le⟩

/-- Settles O17: the choices of R78 and R79 are those of the least and of the greatest age. -/
theorem missReAimsOrAllocates : Obligations.MissReAimsOrAllocates := by
  intro s p w target ra missed age continues fresh
  refine ⟨fun k st aims least => ?_, fun none_aims => ?_⟩
  · have aimed : ra.reAimed s.fetchEnv p w target = some k :=
      ReadAhead.leastBy_age aims.1 ((ra.continues_iff p w target k).2 ⟨st, aims⟩) fun j h => by
        obtain ⟨other, h⟩ := (ra.continues_iff p w target j).1 h
        exact ⟨other, h.1, least j other h⟩
    refine ⟨_, ?_, ra.turned_release k _ st.owned⟩
    simp only [missed, ReadAhead.miss, aimed, ReadAhead.reAim, aims.1]
    rfl
  · have nobody : ra.reAimed s.fetchEnv p w target = none := by
      rw [ReadAhead.reAimed, leastBy_eq_none, List.filter_eq_nil_iff]
      intro k _ h
      obtain ⟨st, h⟩ := (ra.continues_iff p w target k).1 h
      exact none_aims k st h
    have allocates {k : StreamId} (taken : ra.taken s.fetchEnv.now = some k) :
        missed = ((ra.retire k).setStream k (some fresh)).topUp s.fetchEnv := by
      simp only [missed, ReadAhead.miss, nobody, taken]
      rfl
    refine ⟨fun k free lowest => ?_, fun busy k st stream greatest => ?_⟩
    · have found : ra.freeStream = some k :=
        find?_eq_lowest allStreams _ k (mem_allStreams k) allStreams_rising (by rw [free]; rfl) fun j below =>
          Bool.eq_false_iff.2 fun isNone => lowest j below (Option.isNone_iff_eq_none.1 isNone)
      refine ⟨_, allocates (by rw [ReadAhead.taken, found]), ?_⟩
      rw [ReadAhead.retire_of_none free]
      exact ra.turned_release k fresh []
    · have full : ra.freeStream = none :=
        List.find?_eq_none.2 fun j _ isNone => busy j (Option.isNone_iff_eq_none.1 isNone)
      have oldest : ra.oldest s.fetchEnv.now = some k := ReadAhead.oldest_eq busy stream greatest
      exact ⟨_, allocates (by rw [ReadAhead.taken, full, oldest]), ra.turned_retire stream fresh⟩

end Sys2Proof.Machine
end

section
/-! SUPPORT. The discard of a port's work, line by line and slot by slot (O10). -/

namespace Sys2Proof.Machine

section Discard

variable {ra : ReadAhead} {i : LineId} {l : Line} {p : PortId} {gone : List Nat}

/-- The line without the reads that are discarded (R90, R91). -/
def Line.without (gone : List Nat) (l : Line) : Line :=
  { l with attached := l.attached.filter fun e => !gone.contains e }

theorem Line.without_unread (unread : l.attached = []) (gone : List Nat) : l.without gone = l := by
  cases l
  cases unread
  rfl

theorem Line.mem_without {e : Nat} (mem : e ∈ (l.without gone).attached) : e ∉ gone := by
  obtain ⟨_, stays⟩ := List.mem_filter.1 mem
  simpa using stays

/-- A line is released by the discard of a port when its owner is a stream of the port. -/
def ReadAhead.CutOff (ra : ReadAhead) (p : PortId) (l : Line) : Prop :=
  ∃ k st, l.owner = some k ∧ ra.streams[k] = some st ∧ st.port = p

theorem ReadAhead.ownerHas_port_iff (ra : ReadAhead) (p : PortId) (l : Line) :
    ra.OwnerHas (fun st => decide (st.port = p)) l ↔ ra.CutOff p l := by
  simp only [ReadAhead.OwnerHas, ReadAhead.CutOff, decide_eq_true_eq]

theorem ReadAhead.shed_free (free : ra.lines[i] = none) (p : PortId) (gone : List Nat) :
    (ra.shed p gone).lines[i] = none := by
  have left : (ra.mapLines (Line.withoutReads gone)).lines[i] = none := by
    rw [ReadAhead.mapLines_lines, free, Option.bind_none]
  rw [ReadAhead.shed, ReadAhead.mapLines_lines, ReadAhead.retireWhere_free left, Option.bind_none]

theorem ReadAhead.withoutReads_line (line : ra.lines[i] = some l) (gone : List Nat) :
    (ra.mapLines (Line.withoutReads gone)).lines[i] = some (l.without gone) := by
  rw [ReadAhead.mapLines_lines, line]
  rfl

/-- The discarded reads leave the line, a stream of the port releases it, and it is cancelled if unwanted (R90). -/
theorem ReadAhead.Lawful.shed_released (lawful : ra.Lawful noTarget) (line : ra.lines[i] = some l)
    (cut : ra.CutOff p l) : (ra.shed p gone).lines[i] = (l.without gone).released.bind Line.cancelUnwanted := by
  rw [ReadAhead.shed, ReadAhead.mapLines_lines, (lawful.withoutReads gone).retireWhere_released
    (ReadAhead.withoutReads_line line gone) ((ra.ownerHas_port_iff p l).2 cut)]

/-- The discarded reads leave a line that no stream of the port owns, and it is cancelled if unwanted (R90). -/
theorem ReadAhead.Lawful.shed_unreleased (lawful : ra.Lawful noTarget) (line : ra.lines[i] = some l)
    (kept : ¬ ra.CutOff p l) : (ra.shed p gone).lines[i] = (l.without gone).cancelUnwanted := by
  rw [ReadAhead.shed, ReadAhead.mapLines_lines, (lawful.withoutReads gone).retireWhere_kept
    (ReadAhead.withoutReads_line line gone) (mt (ra.ownerHas_port_iff p l).1 kept), Option.bind_some]

/-- Only a PENDING line without attached reads is cancelled. -/
theorem Line.cancelUnwanted_wanted (wanted : l.isPending = true → l.attached ≠ []) : l.cancelUnwanted = some l :=
  if_neg fun ⟨pending, _, unread⟩ => wanted pending unread

/-- A line of a stream of the port meets the fate of R75, its discarded reads gone. -/
theorem ReadAhead.Lawful.shed_cutOff (lawful : ra.Lawful noTarget) (line : ra.lines[i] = some l)
    (cut : ra.CutOff p l) : (ra.shed p gone).lines[i] = (l.without gone).released := by
  rw [lawful.shed_released line cut]
  cases becomes : (l.without gone).released with
  | none => rfl
  | some l' =>
    obtain ⟨rfl, _, read⟩ := Line.released_some becomes
    exact Line.cancelUnwanted_wanted read

/-- Any other line loses its discarded reads, and is cancelled when nobody waits for it (R90). -/
theorem ReadAhead.Lawful.shed_kept (lawful : ra.Lawful noTarget) (line : ra.lines[i] = some l)
    (kept : ¬ ra.CutOff p l) : (ra.shed p gone).lines[i] =
      (match l.state with
        | .valid _ _ => some l
        | .pending _ => if (l.owner = none ∨ l.stale = true) ∧ (l.without gone).attached = [] then none
          else some (l.without gone)
        | .fetching => some (l.without gone)) := by
  rw [lawful.shed_unreleased line kept]
  cases state : l.state with
  | valid poison data =>
    obtain ⟨_, unread⟩ := (lawful.lines i l line).valid (l.isValid_iff.2 ⟨poison, data, state⟩)
    have same := Line.without_unread unread gone
    rw [same, Line.cancelUnwanted, if_neg fun h => by simp [Line.isPending, state] at h]
  | pending deadline =>
    have pending : (l.without gone).isPending = true := by simp only [Line.isPending, Line.without, state]
    simp only [Line.cancelUnwanted, pending, true_and]
    rfl
  | fetching =>
    exact Line.cancelUnwanted_wanted fun pending => absurd state (Line.not_fetching_of_pending pending)

/-- No discarded read is attached any more (R90, R91). -/
theorem ReadAhead.Lawful.shed_attached (lawful : ra.Lawful noTarget) (p : PortId)
    (found : (ra.shed p gone).lines[i] = some l) {e : Nat} (mem : e ∈ l.attached) : e ∉ gone := by
  cases line : ra.lines[i] with
  | none =>
    rw [ReadAhead.shed_free line] at found
    cases found
  | some before =>
    by_cases cut : ra.CutOff p before
    · rw [lawful.shed_cutOff line cut] at found
      obtain ⟨rfl, _⟩ := Line.released_some found
      exact Line.mem_without mem
    · rw [lawful.shed_unreleased line cut] at found
      unfold Line.cancelUnwanted at found
      split at found <;> cases found
      exact Line.mem_without mem

theorem ReadAhead.shed_nextFetch (ra : ReadAhead) (p : PortId) (gone : List Nat) :
    (ra.shed p gone).nextFetch = ra.nextFetch := by
  rw [ReadAhead.shed, ReadAhead.mapLines_nextFetch, ReadAhead.retireWhere_nextFetch, ReadAhead.mapLines_nextFetch]

/-- The streams left are those of the other port. -/
theorem ReadAhead.shed_stream (ra : ReadAhead) (p : PortId) (gone : List Nat) (k : StreamId) :
    (ra.shed p gone).streams[k] = ra.streams[k].filter fun st => !decide (st.port = p) := by
  rw [ReadAhead.shed, ReadAhead.mapLines_streams, ReadAhead.retireWhere_streams, ReadAhead.mapLines_streams]

theorem ReadAhead.shed_stream_other {k : StreamId} {st : Stream} (stream : ra.streams[k] = some st)
    (other : st.port ≠ p) (gone : List Nat) : (ra.shed p gone).streams[k] = some st := by
  rw [ReadAhead.shed_stream, stream]
  simp [Option.filter, other]

end Discard

/-! ## Slots -/

theorem Slot.withoutEntries_demand (place : Nat) (line : Addr) (d : Timer) (gone : List Nat) :
    (Slot.busy (.demand (some place)) line d).withoutEntries gone =
      if place ∈ gone then .busy (.demand none) line d else .busy (.demand (some place)) line d := by
  simp only [Slot.withoutEntries, List.contains_iff_mem]
  split <;> rfl

theorem Slot.withoutEntries_other {slot : Slot} (other : ∀ place line d, slot ≠ .busy (.demand (some place)) line d)
    (gone : List Nat) : slot.withoutEntries gone = slot := by
  unfold Slot.withoutEntries
  split
  · rename_i place line d
    exact absurd rfl (other place line d)
  · rfl

/-- Settles O10: what `ReadAhead.shed` leaves of each stream and line, a top-up pass that adds lines without attached
reads, and the owners of the slots. -/
theorem portDiscardSparesOtherPort : Obligations.PortDiscardSparesOtherPort := by
  refine ⟨fun s p gone sound => ?_, fun gone => ⟨fun place line d => Slot.withoutEntries_demand place line d gone,
    fun slot other => Slot.withoutEntries_other other gone⟩⟩
  have lawful := (s.poolSound_iff.1 sound).lawful
  have tops : s.readAhead.discardPort s.fetchEnv p gone = (s.readAhead.shed p gone).topUp s.fetchEnv := rfl
  rw [tops]
  refine ⟨⟨s.readAhead.shed p gone, rfl, s.readAhead.shed_nextFetch p gone, fun k => ⟨fun free => ?_,
      fun st stream => ⟨fun own => ?_, fun other => ReadAhead.shed_stream_other stream other gone⟩⟩,
      fun i => ⟨fun free => ReadAhead.shed_free free p gone, fun l line => ⟨fun cut => ?_, fun kept => ?_⟩⟩⟩,
    fun k st found => ?_, fun i l found e mem => ?_, fun k st stream other => ?_,
    fun i l k st line valid own stream other => ?_⟩
  · rw [ReadAhead.shed_stream, free]
    rfl
  · rw [ReadAhead.shed_stream, stream]
    simp [Option.filter, own]
  · rw [lawful.shed_cutOff line cut, Line.released_eq]
    rfl
  · exact lawful.shed_kept line kept
  · cases left : (s.readAhead.shed p gone).streams[k] with
    | none =>
      rw [(ReadAhead.topUp_streams _ s.fetchEnv k).1 left] at found
      cases found
    | some before =>
      obtain ⟨added, after⟩ := (ReadAhead.topUp_streams _ s.fetchEnv k).2 before left
      rw [found] at after
      cases after
      rw [ReadAhead.shed_stream, Option.filter_eq_some_iff] at left
      simpa using left.2
  · rcases ReadAhead.topUp_lines _ _ _ _ found with left | ⟨_, k, st, new⟩
    · exact lawful.shed_attached p left mem
    · rw [new] at mem
      cases mem
  · obtain ⟨added, after⟩ := (ReadAhead.topUp_streams _ s.fetchEnv k).2 st
      (ReadAhead.shed_stream_other stream other gone)
    exact ⟨_, after, rfl, rfl, rfl, rfl, List.prefix_append _ _⟩
  · refine ReadAhead.topUp_lines_of_some s.fetchEnv ?_
    obtain ⟨poison, data, state⟩ := l.isValid_iff.1 valid
    rw [lawful.shed_kept line, state]
    rintro ⟨k', st', own', stream', port⟩
    rw [own] at own'
    cases own'
    rw [stream] at stream'
    cases stream'
    exact other port

end Sys2Proof.Machine
end

section
/-! SUPPORT. Admitted fences and the commands that replace the parameters and the alert mask (O22, O47). -/

namespace Sys2Proof.Machine

/-! ## Fences -/

section Fence

variable {s : State} {p : PortId} {tag : Byte} {scope : Scope} {purge : Bool}

theorem State.fenceHorizon_eq (s : State) (p : PortId) (scope : Scope) : s.fenceHorizon p scope =
    (s.queue.filter fun r =>
      match scope with
      | .all => true
      | .port => decide (r.port = p)).map WriteRecord.place := by
  cases scope <;> rfl

/-- The fields that a FENCE takes at its hand-off (R95, R97). -/
def State.fenceFields (s : State) (p : PortId) (scope : Scope) (purge : Bool) : FenceFields :=
  { scope := scope, purge := purge, horizon := s.fenceHorizon p scope, failedCount := 0,
    droppedSeen := (s.port p).dropFlag, poisonedSeen := false }

/-- The entry that a FENCE makes. -/
def State.fenceEntry (s : State) (p : PortId) (tag : Byte) (scope : Scope) (purge : Bool) (state : EntryState) :
    Entry :=
  { place := s.nextPlace, port := p, tag := tag, kind := .fence (s.fenceFields p scope purge), state := state }

/-- The part with the port's drop flag cleared (R97). -/
def State.flagTaken (s : State) (p : PortId) : State :=
  s.setPort p { s.port p with dropFlag := false }

theorem State.flagTaken_spent (s : State) (p : PortId) (r : Request) :
    (s.setPort p ((s.port p).spent r)).flagTaken p =
      s.setPort p { (s.port p).spent r with dropFlag := false } := by
  rw [State.flagTaken, State.setPort_port_same, State.setPort_setPort]

theorem State.spent_fenceEntry (s : State) (p : PortId) (r : Request) (tag : Byte) (scope : Scope) (purge : Bool)
    (state : EntryState) :
    (s.setPort p ((s.port p).spent r)).fenceEntry p tag scope purge state = s.fenceEntry p tag scope purge state := by
  cases p <;> rfl

theorem State.fenceFields_status (s : State) (p : PortId) (scope : Scope) (purge : Bool) :
    (s.fenceFields p scope purge).status = if (s.port p).dropFlag then .faulted else .ok := by
  unfold FenceFields.status State.fenceFields
  cases (s.port p).dropFlag <;> rfl

theorem State.flagTaken_joinedDone_readAhead (s : State) (p : PortId) (e : Entry) :
    ((s.flagTaken p).joinedDone e).readAhead = s.readAhead := by
  rw [State.joinedDone, State.setPort_readAhead]
  exact State.setPort_readAhead s p _

theorem State.flagTaken_joinedDone_fetchEnv (s : State) (p : PortId) (e : Entry) :
    ((s.flagTaken p).joinedDone e).fetchEnv = s.fetchEnv := by
  rw [State.joinedDone, State.setPort_fetchEnv]
  exact State.setPort_fetchEnv s p _

theorem State.setPool_same {t : State} {ra : ReadAhead} (same : t.readAhead = ra) : t = { t with readAhead := ra } := by
  rw [← same]

/-- A fence with records to wait for is PENDING (R95). -/
theorem State.handOffFence_waits (waits : s.fenceHorizon p scope ≠ []) : s.handOffFence p tag scope purge =
    (s.flagTaken p).joined (s.fenceEntry p tag scope purge .pending) := by
  unfold State.handOffFence
  exact if_neg waits

/-- A fence with nothing to wait for is DONE at once, and purges if its flag is set (R101, R102). -/
theorem State.handOffFence_empty (new : ∀ e ∈ s.tracker, e.place < s.nextPlace) (empty : s.fenceHorizon p scope = []) :
    s.handOffFence p tag scope purge =
      { (s.flagTaken p).joinedDone (s.fenceEntry p tag scope purge
          (.done (if (s.port p).dropFlag then .faulted else .ok) [])) with
        readAhead := if purge then s.readAhead.purge s.fetchEnv else s.readAhead } := by
  have done := State.finish_addEntry (s := s.flagTaken p) (e := s.fenceEntry p tag scope purge .pending)
    (s.fenceFields p scope purge).status [] fun x mem =>
      Nat.ne_of_lt (new x (by rwa [State.flagTaken, State.setPort_tracker] at mem))
  have ended : ((s.flagTaken p).addEntry (s.fenceEntry p tag scope purge .pending)).finish s.nextPlace
      (s.fenceFields p scope purge).status [] = (s.flagTaken p).joinedDone (s.fenceEntry p tag scope purge
        (.done (if (s.port p).dropFlag then .faulted else .ok) [])) := by
    rw [State.fenceFields_status] at done ⊢
    exact done
  have handed : s.handOffFence p tag scope purge = ((s.flagTaken p).addEntry
      (s.fenceEntry p tag scope purge .pending)).finishFence s.nextPlace (s.fenceFields p scope purge) := by
    unfold State.handOffFence
    exact if_pos empty
  rw [handed, State.finishFence, ended]
  dsimp only
  rw [State.flagTaken_joinedDone_readAhead, State.flagTaken_joinedDone_fetchEnv,
    show (s.fenceFields p scope purge).purge = purge from rfl]
  cases purge with
  | true => rw [if_pos rfl, if_pos rfl]
  | false =>
    rw [if_neg Bool.false_ne_true, if_neg Bool.false_ne_true]
    exact State.setPool_same (State.flagTaken_joinedDone_readAhead s p _)

end Fence

/-- Settles O22: an admitted FENCE spends its credit and takes the drop flag; with an empty horizon its entry is DONE as
soon as it joins. -/
theorem fenceTakesHorizonAndDropFlag : Obligations.FenceTakesHorizonAndDropFlag := by
  intro s p rest tag scope purge ordered _ admits horizon flag fields spent
  have horizon_eq : (s.setPort p ((s.port p).spent (.fence tag scope purge))).fenceHorizon p scope = horizon := by
    have taken := (s.setPort p ((s.port p).spent (.fence tag scope purge))).fenceHorizon_eq p scope
    rw [State.setPort_queue] at taken
    exact taken
  have fields_eq : s.fenceFields p scope purge = fields :=
    congrArg (FenceFields.mk scope purge · 0 flag false) (s.fenceHorizon_eq p scope)
  have entry (state : EntryState) : s.fenceEntry p tag scope purge state =
      { place := s.nextPlace, port := p, tag := tag, kind := .fence fields, state := state } := by
    rw [State.fenceEntry, fields_eq]
  have new := State.tracker_lt_of_orderSound ordered
  refine ⟨fun waits => ?_, fun empty => ?_⟩
  · rw [exec_of_admits admits, State.handOff, State.handOffFence_waits (horizon_eq ▸ waits), State.flagTaken_spent,
      State.spent_fenceEntry, entry]
  · rw [exec_of_admits admits, State.handOff, State.handOffFence_empty (by simpa using new) (horizon_eq.trans empty),
      State.flagTaken_spent, State.spent_fenceEntry, entry, State.setPort_readAhead, State.setPort_fetchEnv,
      State.setPort_port_same]
    rfl

/-! ## Parameters -/

section Parameters

variable {s : State} {new : Params}

theorem Params.changesAllocations_iff (old new : Params) : old.changesAllocations new = true ↔
    new.writeA ≠ old.writeA ∨ new.requestA ≠ old.requestA := by
  rw [Params.changesAllocations, Bool.not_eq_true', Bool.and_eq_false_iff, decide_eq_false_iff_not,
    decide_eq_false_iff_not]

theorem State.refusesAllocations_iff (s : State) (new : Params) : s.refusesAllocations new = true ↔
    s.portA.state = .active ∨ s.portB.state = .active ∨
      new.writeA < queuedRecords s.queue .a ∨ 32 - new.writeA < queuedRecords s.queue .b := by
  simp only [State.refusesAllocations, Bool.or_eq_true, decide_eq_true_eq, or_assoc]
  exact Iff.rfl

/-- The pool after the idle time has changed: the streams already past it are retired, then one top-up pass (R88). -/
def State.expiredPool (s : State) (new : Params) : ReadAhead :=
  if new.idle = s.startUp.params.idle then s.readAhead
  else (s.readAhead.retireWhere (Stream.expired s.startUp.counter new.idle)).topUp s.fetchEnv

theorem State.replaceParams_expireAtOnce (s : State) (new : Params) :
    (s.replaceParams new).expireAtOnce s.startUp.params.idle =
      { s.replaceParams new with readAhead := s.expiredPool new } := by
  rw [State.replaceParams_eq]
  unfold State.expireAtOnce State.expiredPool
  dsimp only
  split <;> rfl

/-- The allocations stay, and with them the owed counts. -/
theorem State.replaceParams_same (same : ¬ s.startUp.params.changesAllocations new = true) :
    s.replaceParams new = { s with startUp := { s.startUp with params := new } } :=
  if_neg same

/-- Changed allocations set the owed counts afresh (R143). -/
theorem State.replaceParams_changed (changed : s.startUp.params.changesAllocations new = true) :
    s.replaceParams new = { s with
      startUp := { s.startUp with params := new }
      portA := s.portA.reallocated new .a (queuedRecords s.queue .a)
      portB := s.portB.reallocated new .b (queuedRecords s.queue .b) } :=
  if_pos changed

/-- SET_PARAMS is answered with its effect on the part (R173). -/
theorem exec_setParams_serving (serving : s.serving) {b : ParamBytes} (read : paramsOf b = some new) :
    exec (.setParams b) s = (s.setParams new).1.answering (0x0A :: b.bytes) (s.setParams new).2.bytes := by
  rw [exec_setParams, execSetParams, read]
  exact State.takeCommand_serving serving _ _

/-- The parameters are replaced unless the state refuses changed allocations (R174). -/
theorem State.setParams_taken (allowed : ¬ (s.startUp.params.changesAllocations new = true ∧
    s.refusesAllocations new = true)) :
    s.setParams new = ({ s.replaceParams new with readAhead := s.expiredPool new }, .done []) := by
  rw [State.setParams, if_neg allowed, State.replaceParams_expireAtOnce]

end Parameters

theorem queuedRecords_eq (queue : List WriteRecord) (p : PortId) :
    queuedRecords queue p = (queue.filter fun r => decide (r.port = p)).length :=
  List.countP_eq_length_filter

/-- Settles O47: SET_PARAMS by whether it changes the allocations and whether the state refuses that. -/
theorem parametersReplaced : Obligations.ParametersReplaced := by
  intro s serving
  refine ⟨fun b new read => ?_, fun mask small => ?_, fun params => ⟨rfl, rfl, rfl, rfl⟩, queuedRecords_eq⟩
  · intro command changed barred expired
    have changes : s.startUp.params.changesAllocations new = true ↔ changed := Params.changesAllocations_iff _ _
    have refuses : s.refusesAllocations new = true ↔ barred := s.refusesAllocations_iff new
    rw [exec_setParams_serving serving read]
    refine ⟨fun change bar => ?_, fun change free => ?_, fun same => ?_⟩
    · rw [State.setParams, if_pos ⟨changes.2 change, refuses.2 bar⟩]
      rfl
    · rw [State.setParams_taken fun h => free (refuses.1 h.2), State.replaceParams_changed (changes.2 change)]
      rfl
    · rw [State.setParams_taken fun h => same (changes.1 h.1), State.replaceParams_same fun h => same (changes.1 h)]
      rfl
  · rw [exec_setAlertMask, execSetAlertMask, maskOf, if_pos small, State.takeCommand_serving serving]
    rfl

end Sys2Proof.Machine
end

section
/-! SUPPORT. Responses that no owner takes, and the layouts of the messages the part sends (O28, O39). -/

namespace Sys2Proof.Machine

/-! ## Responses without an owner -/

/-- Settles O28: a FREE slot's response is only logged, and a slot without an owner is only freed. -/
theorem unownedResponses : Obligations.UnownedResponses := by
  intro s message awake r
  rw [exec_response_awake message awake]
  refine ⟨fun free => ?_, fun line deadline ownerless => ?_⟩
  · rw [State.respond, free]
    rfl
  · rw [State.respond_busy ownerless]
    rfl

/-! ## Flags in a byte -/

/-- Bits below `n` stay as they were, and bit `n + j` becomes flag `j`. -/
theorem foldl_zipIdx_testBit (flags : List Bool) {n start : Nat} (below : start < 2 ^ n) (k : Nat) :
    ((flags.zipIdx n).foldl (fun acc x => if x.1 then acc + 2 ^ x.2 else acc) start).testBit k =
      if k < n then start.testBit k else flags.getD (k - n) false := by
  induction flags generalizing n start with
  | nil =>
    split
    · rfl
    · rename_i above
      exact Nat.testBit_lt_two_pow (below.trans_le (Nat.pow_le_pow_right two_pos (Nat.not_lt.1 above)))
  | cons flag flags ih =>
    rw [List.zipIdx_cons, List.foldl_cons]
    have grown : (if flag then start + 2 ^ n else start) < 2 ^ (n + 1) := by
      rw [Nat.pow_succ]
      split <;> omega
    have here : (if flag then start + 2 ^ n else start).testBit n = flag := by
      have unset : start.testBit n = false := Nat.testBit_lt_two_pow below
      cases flag with
      | false => exact unset
      | true => rw [if_pos rfl, Nat.add_comm, Nat.testBit_two_pow_add_eq, unset, Bool.not_false]
    rw [ih grown]
    rcases Nat.lt_trichotomy k n with lt | rfl | gt
    · rw [if_pos (Nat.lt_succ_of_lt lt), if_pos lt]
      split
      · rw [Nat.add_comm, Nat.testBit_two_pow_add_gt lt]
      · rfl
    · rw [if_pos k.lt_succ_self, if_neg k.lt_irrefl, here, Nat.sub_self, List.getD_cons_zero]
    · rw [if_neg (Nat.not_lt.2 gt), if_neg (Nat.not_lt.2 gt.le), show k - n = k - (n + 1) + 1 by omega,
        List.getD_cons_succ]

/-- Flag `i` of a packed byte stands in bit `i` (Section 11, opening). -/
theorem packFlags_getLsbD (flags : List Bool) (i : Nat) (h : i < 8) :
    (packFlags flags).getLsbD i = flags.getD i false := by
  rw [packFlags, byteOf, BitVec.getLsbD_ofNat, decide_eq_true h, Bool.true_and,
    foldl_zipIdx_testBit flags (Nat.two_pow_pos 0), if_neg i.not_lt_zero, Nat.sub_zero]

/-! ## Upstream messages -/

/-- The bytes of a DONE entry's COMPLETION (Table 11-2). -/
theorem Entry.completion_done {e : Entry} {status : Status} {data : List Byte}
    (h : e.state = .done status data) : e.completion =
      ([0x10, e.kind.code, status.code, e.tag] ++ e.completionTail status data).map withParity := by
  rw [Entry.completion, h]

/-- A FENCE's flags: dropped in bit 0, poisoned in bit 1 (Table 11-2). -/
theorem packFlags_pair (low high : Bool) :
    packFlags [low, high] = (if low then 1 else 0) + (if high then 2 else 0) := by
  cases low <;> cases high <;> rfl

/-! ## Memory requests -/

theorem byteAt_append_left {xs ys : List Byte} {i : Nat} (h : i < xs.length) :
    byteAt (xs ++ ys) i = byteAt xs i :=
  List.getD_append _ _ _ _ h

/-- The position is counted from the end of the first part. -/
theorem byteAt_append_right {xs ys : List Byte} {n : Nat} (h : xs.length = n) (i : Nat) :
    byteAt (xs ++ ys) (n + i) = byteAt ys i := by
  rw [byteAt, List.getD_append_right _ _ _ _ (by omega), h, Nat.add_sub_cancel_left, byteAt]

/-- The five bytes of an address read back as the address (Section 11, opening). -/
theorem addrAt_addrBytes (a : Addr) : addrAt (addrBytes a) 0 = a := by
  change a.extractLsb' 32 8 ++ a.extractLsb' 24 8 ++ a.extractLsb' 16 8 ++ a.extractLsb' 8 8 ++
    a.extractLsb' 0 8 = a
  rw [BitVec.extractLsb'_append_extractLsb'_eq_extractLsb' (by rfl),
    BitVec.extractLsb'_append_extractLsb'_eq_extractLsb' (by rfl),
    BitVec.extractLsb'_append_extractLsb'_eq_extractLsb' (by rfl),
    BitVec.extractLsb'_append_extractLsb'_eq_extractLsb' (by rfl)]
  exact BitVec.extractLsb'_eq_self

theorem maskBytes_length (mask : Mask) : (maskBytes mask).length = 8 := by
  rw [maskBytes, List.length_map, List.length_range]

/-- Position `p` of a mask stands in byte `p / 8`, bit `p % 8` (Table 11-4). -/
theorem maskBytes_getLsbD (mask : Mask) (p : Fin 64) :
    (byteAt (maskBytes mask) (p.val / 8)).getLsbD (p.val % 8) = mask[p] := by
  have byte : byteAt (maskBytes mask) (p.val / 8) = packFlags ((List.range 8).map fun i =>
      mask.toArray.toList.getD (8 * (p.val / 8) + i) false) := by
    simp [byteAt, maskBytes, show p.val / 8 < 8 by omega]
  rw [byte, packFlags_getLsbD _ _ (Nat.mod_lt _ (by decide))]
  simp [Nat.mod_lt, Nat.div_add_mod]

/-- The layout that both memory requests share: three bytes of head, line, mask and, for a write, the
image (Table 11-4). -/
def memoryRequest (kind slot third : Byte) (line : Addr) (mask : Mask) (image : List Byte) :
    List Byte :=
  [kind, slot, third] ++ addrBytes line ++ maskBytes mask ++ image

theorem lineWrite_eq (i : SlotId) (r : WriteRecord) : lineWrite i r =
    memoryRequest 0x01 (byteOf i.val) (flagByte r.poison) r.line r.mask r.data.toArray.toList := rfl

theorem lineRead_eq (i : SlotId) (line : Addr) (mask : Mask) :
    lineRead i line mask = memoryRequest 0x02 (byteOf i.val) 0x00 line mask [] :=
  (List.append_nil _).symm

section Layout

variable (kind slot third : Byte) (line : Addr) (mask : Mask) (image : List Byte)

theorem memoryRequest_length :
    (memoryRequest kind slot third line mask image).length = 16 + image.length := by
  rw [memoryRequest, List.length_append, List.length_append, maskBytes_length]
  rfl

theorem memoryRequest_line : addrAt (memoryRequest kind slot third line mask image) 3 = line :=
  addrAt_addrBytes line

/-- The mask stands in bytes 8 to 15. -/
theorem memoryRequest_mask (p : Fin 64) :
    (byteAt (memoryRequest kind slot third line mask image) (8 + p.val / 8)).getLsbD (p.val % 8) =
      mask[p] := by
  rw [memoryRequest, List.append_assoc, byteAt_append_right (by rfl),
    byteAt_append_left (by rw [maskBytes_length]; omega), maskBytes_getLsbD]

/-- The image stands from byte 16 on. -/
theorem memoryRequest_image (p : Nat) :
    byteAt (memoryRequest kind slot third line mask image) (16 + p) = byteAt image p := by
  refine byteAt_append_right ?_ p
  rw [List.length_append, maskBytes_length]
  rfl

end Layout

/-- Settles O39: upstream messages kind by kind, and both memory requests by their shared layout. -/
theorem messagesFollowLayouts : Obligations.MessagesFollowLayouts := by
  refine ⟨rfl, fun e status data done => ?_, fun _ _ => rfl, fun i r => ?_, fun i line mask => ?_⟩
  · obtain ⟨_, _, _, kind, _⟩ := e
    rw [Entry.completion_done done, Entry.completionTail]
    cases kind with
    | read r => cases status <;> rfl
    | ackedWrite => rfl
    | fence f =>
      dsimp only
      rw [packFlags_pair]
      rfl
  · rw [lineWrite_eq]
    refine ⟨?_, rfl, rfl, rfl, memoryRequest_line .., fun p => ⟨memoryRequest_mask .., ?_⟩⟩
    · rw [memoryRequest_length, Array.length_toList, Vector.size_toArray]
    · rw [memoryRequest_image]
      exact lineByte_of_lt r.data p.val p.isLt
  · rw [lineRead_eq]
    exact ⟨memoryRequest_length .., rfl, rfl, rfl, memoryRequest_line ..,
      fun p => memoryRequest_mask ..⟩

end Sys2Proof.Machine
end

section
/-! SUPPORT. The form check, and requests that are ignored or meet a protocol error (O11, O12). -/

namespace Sys2Proof.Machine

/-! ## The form check -/

section Form
variable {ack : Bool} {tag n : Byte} {a : Addr} {data : List LinkByte}

theorem Request.formError_read_length (bad : n.toNat = 0 ∨ 64 < n.toNat) :
    Request.formError (.read tag a n) = some .badLength :=
  if_pos bad

theorem Request.formError_read_crossing (low : 1 ≤ n.toNat) (high : n.toNat ≤ 64)
    (crosses : 64 < a.toNat % 64 + n.toNat) : Request.formError (.read tag a n) = some .lineCrossing :=
  (if_neg (by omega)).trans (if_pos crosses)

theorem Request.formError_read_fits (low : 1 ≤ n.toNat) (fits : a.toNat % 64 + n.toNat ≤ 64) :
    Request.formError (.read tag a n) = none :=
  (if_neg (by omega)).trans (if_neg (Nat.not_lt.2 fits))

theorem Request.formError_write_count (other : data.length ≠ n.toNat) :
    Request.formError (.write ack tag a n data) = some .badLength := by
  rw [Request.formError, if_pos other]
  exact ite_self _

/-- A WRITE with as many data bytes as its length is weighed as a READ (R135). -/
theorem Request.formError_write_eq_read (count : data.length = n.toNat) :
    Request.formError (.write ack tag a n data) = Request.formError (.read tag a n) := by
  simp [Request.formError, count]

end Form

/-- Settles O11: a WRITE's data count is weighed after its length, and the rest is a READ's check. -/
theorem formCheckInOrder : Obligations.FormCheckInOrder := by
  refine ⟨rfl, fun _ _ _ => rfl, fun tag a n => ⟨Request.formError_read_length,
    Request.formError_read_crossing, Request.formError_read_fits⟩, fun ack tag a n data =>
    ⟨fun bad => ?_, fun low high count crosses => ?_, fun low count fits => ?_⟩⟩
  · by_cases count : data.length = n.toNat
    · rw [Request.formError_write_eq_read count]
      exact Request.formError_read_length (by omega)
    · exact Request.formError_write_count count
  · rw [Request.formError_write_eq_read count]
    exact Request.formError_read_crossing low high crosses
  · rw [Request.formError_write_eq_read count]
    exact Request.formError_read_fits low fits

/-! ## Protocol errors -/

/-- What a refusal can be: the first of the three checks that fails gives its cause (R134). -/
theorem State.refusal_eq_some {s : State} {p : PortId} {r : Request} {cause : ProtocolCause}
    (h : s.refusal p r = some cause) : r.formError = some cause ∨
      r.formError = none ∧ (r.overruns (s.port p) = true ∧ cause = .creditOverrun ∨
        ¬ r.overruns (s.port p) = true ∧ s.duplicateTag p r = true ∧ cause = .duplicateTag) := by
  rw [Request.overruns_iff, State.duplicateTag_iff]
  unfold State.refusal at h
  split at h
  case h_1 form => exact .inl (form.trans h)
  case h_2 form =>
    split at h
    case isTrue overruns =>
      cases h
      exact .inr ⟨form, .inl ⟨overruns, rfl⟩⟩
    case isFalse covered =>
      split at h
      case isTrue duplicate =>
        cases h
        exact .inr ⟨form, .inr ⟨covered, duplicate, rfl⟩⟩
      case isFalse => cases h

/-- A protocol error is a cut-off in FAULTED with its log record (R147). -/
theorem State.protocolError_eq (s : State) (p : PortId) (cause : ProtocolCause) (r : Request) :
    s.protocolError p cause r = { s.cutOff p .faulted with
      log := s.log.append
        { time := s.startUp.counter, event := .portProtocol p cause r.tag? r.length? } } := by
  cases p <;> rfl

theorem State.requestArrives_ignored {s : State} {p : PortId} (down : (s.port p).state ≠ .active)
    (r : Request) : s.requestArrives p r = none :=
  if_neg down

/-- A request that fails one of steps 1 to 3 is a protocol error, its credits spent or not (R134). -/
theorem State.requestArrives_refused {s : State} {p : PortId} {r : Request} {cause : ProtocolCause}
    (active : (s.port p).state = .active) (refused : s.refusal p r = some cause) :
    s.requestArrives p r = some (s.protocolError p cause r) := by
  unfold State.requestArrives
  rw [if_pos active]
  obtain form | ⟨form, ⟨overruns, rfl⟩ | ⟨covered, duplicate, rfl⟩⟩ := State.refusal_eq_some refused
  · simp only [form]
  · simp only [form]
    exact congrArg some (if_pos overruns)
  · have held : (s.spentBy p r).duplicateTag p r = true := by
      rwa [State.duplicateTag_iff, State.spentBy, State.setPort_tracker, ← State.duplicateTag_iff]
    simp only [form]
    refine congrArg some ((if_neg covered).trans ?_)
    exact (if_pos held).trans (State.protocolError_spentBy s p _ r)

theorem exec_request_refused {s : State} {i : Instr} {p : PortId} {r : Request} {cause : ProtocolCause}
    (awake : s.awake) (request : requestOf i = some (p, r)) (active : (s.port p).state = .active)
    (refused : s.refusal p r = some cause) : exec i s = .next ({ s.cutOff p .faulted with
      log := s.log.append
        { time := s.startUp.counter, event := .portProtocol p cause r.tag? r.length? } } : State).settle := by
  rw [exec_of_requestOf s request, State.requestArrives_refused active refused, State.take_some _ _ awake,
    State.protocolError_eq]

/-- A well-formed message of no known kind is read as a request of no known kind (R194). -/
theorem parseRequest_of_wellFormed {p : PortId} {message : List LinkByte}
    (unnamed : (Instr.requestOfNoKnownKind p message).wellFormed = true) :
    parseRequest message = .unknown := by
  cases message with
  | nil => rfl
  | cons first rest =>
    obtain ⟨notRead, notWrite, notFence⟩ : first.data ≠ 0x01 ∧ first.data ≠ 0x02 ∧ first.data ≠ 0x03 := by
      simpa [Instr.wellFormed, knownKind, and_assoc] using unnamed
    rw [parseRequest, if_neg notRead, if_neg notWrite, if_neg notFence]

/-- Settles O12: a refused request is a protocol error, and one of no known kind fails its form check. -/
theorem requestsIgnoredOrProtocolErrors : Obligations.RequestsIgnoredOrProtocolErrors := by
  refine ⟨fun s p awake => ⟨fun i r request => ⟨fun down => ?_, fun cause active refused => ?_⟩,
      fun message unnamed active => ?_⟩,
    fun _ _ _ => ⟨rfl, rfl, rfl, rfl⟩, fun _ _ _ _ _ => ⟨rfl, rfl, rfl, rfl⟩,
    fun _ _ _ => ⟨rfl, rfl, rfl, rfl⟩, rfl, rfl⟩
  · rw [exec_of_requestOf s request, State.requestArrives_ignored down, State.take_none]
  · exact exec_request_refused awake request active refused
  · have request : requestOf (.requestOfNoKnownKind p message) = some (p, .unknown) := by
      rw [requestOf, parseRequest_of_wellFormed unnamed]
    exact exec_request_refused (cause := .badKind) awake request active rfl

end Sys2Proof.Machine
end

section
/-! SUPPORT. The sending of CREDIT messages and the end of the configuration load (O6, O38). -/

namespace Sys2Proof.Machine

/-! ## CREDIT messages -/

/-- The link goes to a CREDIT message (R141, R142, R146). -/
theorem State.creditTurn_iff (s : State) (p : PortId) : s.creditTurn p = true ↔
    (s.port p).state = .active ∧ (s.port p).link = .idle ∧ s.quiesce = .running ∧
      (0 < (s.port p).writeOwed ∨ 0 < (s.port p).requestOwed) ∧
      ((s.port p).done = [] ∨ (s.port p).lastSent = .completion) := by
  simp only [State.creditTurn, Bool.and_eq_true, Bool.or_eq_true, decide_eq_true_eq, List.isEmpty_iff,
    State.creditWaits_iff, and_assoc]

theorem State.creditSent_sending {s : State} {p : PortId} {message : List LinkByte}
    (link : (s.port p).link = .sendingCredit message) :
    s.creditSent p = some (s.setPort p { s.port p with link := .idle }) := by
  rw [State.creditSent, link]

/-- Settles O38: the begin is guarded by its turn, and the end by the message on the link. -/
theorem creditMessageTakesAllOwed : Obligations.CreditMessageTakesAllOwed := by
  intro s p awake turn
  refine ⟨fun begins => ?_, fun other => ?_, fun message link => ?_⟩
  · rw [exec_creditBegin, execCreditBegin, State.creditBegin, if_pos ((s.creditTurn_iff p).2 begins),
      State.take_some _ _ awake]
    rfl
  · rw [exec_creditBegin, execCreditBegin, State.creditBegin, if_neg (mt (s.creditTurn_iff p).1 other),
      State.take_none]
  · rw [exec_creditSent, execCreditSent, State.creditSent_sending link, State.take_some _ _ awake]

/-! ## The end of the load -/

theorem exec_loadEnd_loading {s : State} (awake : s.awake) (loading : s.startUp.partState = .loading)
    (flash : List Byte) : exec (.loadEnd flash) s = .next (s.endLoad flash).settle := by
  rw [exec_loadEnd, execLoadEnd, loading]
  exact State.take_some _ _ awake

theorem State.endLoad_ok {flash : List Byte} {image : Image} (passes : checkImage flash = .ok image)
    (s : State) : s.endLoad flash =
      ((s.configured image.table image.params image.mask .ok (bytesRead flash)).linkUp .a).linkUp .b := by
  rw [State.endLoad, passes]

theorem State.endLoad_error {flash : List Byte} {cause : LoadCause} (fails : checkImage flash = .error cause)
    (s : State) : s.endLoad flash = (((s.configured fallbackTable Params.default AlertMask.allEnabled
      (.failed cause) (bytesRead flash)).logEvent (.configFallback cause)).linkUp .a).linkUp .b := by
  rw [State.endLoad, fails]

/-- Settles O6: the configuration is put in force whole, and each port then comes up by its own values. -/
theorem loadEndConfiguresPart : Obligations.LoadEndConfiguresPart := by
  refine ⟨fun s flash image awake loading passes => ⟨image.table, vecOf_getElem_fin 8 _, rfl, ?_⟩,
    fun s flash cause awake loading fails => ⟨fallbackTable, vecOf_getElem_fin 8 _, rfl, ?_⟩⟩
  · rw [exec_loadEnd_loading awake loading, State.endLoad_ok passes, State.linkUp_eq, State.linkUp_eq]
    rfl
  · rw [exec_loadEnd_loading awake loading, State.endLoad_error fails, State.linkUp_eq, State.linkUp_eq]
    rfl

end Sys2Proof.Machine
end

section
/-! SUPPORT. Events whose conditions do not hold (O4). -/

namespace Sys2Proof.Machine

variable {s : State}

/-- An event that is none leaves the state (log 6). -/
theorem State.take_of_none {event : Option State} (nothing : event = none) : s.take event = .next s := by
  rw [nothing, State.take_none]

/-! ## Timed ends -/

theorem State.slotDeadline_idle {i : SlotId} (idle : (s.memPort.slots[i]).isBusy = false) :
    s.slotDeadline i = none := by
  unfold State.slotDeadline
  cases slot : s.memPort.slots[i] with
  | free => rfl
  | orphaned kind line => rfl
  | busy owner line d =>
    rw [slot] at idle
    cases idle

theorem State.writeBackoffEnd_none
    (other : ∀ head rest d, s.queue = head :: rest → head.state ≠ .backoff d) : s.writeBackoffEnd = none := by
  unfold State.writeBackoffEnd
  cases queue : s.queue with
  | nil => rfl
  | cons head rest =>
    dsimp only
    cases state : head.state with
    | backoff d => exact absurd state (other head rest d queue)
    | queued => rfl
    | issued => rfl

theorem State.readBackoffEnd_none {p : PortId} {tag : Byte}
    (other : ∀ e ∈ s.tracker, e.port = p → e.tag = tag → ∀ d, e.state ≠ .backoff d) :
    s.readBackoffEnd p tag = none := by
  unfold State.readBackoffEnd
  cases found : s.entryTagged p tag with
  | none => rfl
  | some e =>
    obtain ⟨port, tagged⟩ : e.port = p ∧ e.tag = tag := by simpa using List.find?_some found
    dsimp only
    split
    case h_1 d state => exact absurd state (other e (List.mem_of_find?_eq_some found) port tagged d)
    case h_2 => rfl

theorem State.fetchBackoffEnd_none {i : LineId}
    (other : ∀ l d, s.readAhead.lines[i] = some l → l.state ≠ .pending (some d)) :
    s.fetchBackoffEnd i = none := by
  unfold State.fetchBackoffEnd
  cases line : s.readAhead.lines[i] with
  | none => rfl
  | some l =>
    dsimp only
    split
    case h_1 d state => exact absurd state (other l d line)
    all_goals rfl

theorem State.idleExpiry_free {k : StreamId} (free : s.readAhead.streams[k] = none) : s.idleExpiry k = none := by
  rw [State.idleExpiry, free]

/-! ## Sending -/

theorem State.not_completionTurn {p : PortId}
    (other : (s.port p).state ≠ .active ∨ (s.port p).link ≠ .idle ∨ (s.port p).done = []) :
    ¬ s.completionTurn p = true := by
  rw [State.completionTurn_iff]
  rintro ⟨active, idle, waiting, -⟩
  rcases other with down | busy | empty
  · exact down active
  · exact busy idle
  · exact waiting empty

theorem State.completionSent_none {p : PortId}
    (other : ∀ message, (s.port p).link ≠ .sendingCompletion message) : s.completionSent p = none := by
  unfold State.completionSent
  split
  case h_1 message _ _ link _ => exact absurd link (other message)
  case h_2 => rfl

theorem State.creditSent_none {p : PortId}
    (other : ∀ message, (s.port p).link ≠ .sendingCredit message) : s.creditSent p = none := by
  unfold State.creditSent
  cases link : (s.port p).link with
  | sendingCredit message => exact absurd link (other message)
  | idle => rfl
  | sendingCompletion message => rfl

/-! ## The maintenance port and the load -/

theorem exec_lastBitOfResponseSent_other (other : s.maint.frame ≠ .answering) :
    exec .lastBitOfResponseSent s = .next s := by
  refine State.take_of_none ?_
  cases frame : s.maint.frame with
  | answering => exact absurd frame other
  | idle => rfl
  | receiving => rfl
  | spent => rfl

theorem exec_unknownCommand_named {code : Byte} (named : (Instr.unknownCommand code).wellFormed = false) :
    exec (.unknownCommand code) s = .next s :=
  if_pos (by simpa [Instr.wellFormed] using named)

theorem exec_loadEnd_running (running : s.startUp.partState = .running) (flash : List Byte) :
    exec (.loadEnd flash) s = .next s :=
  State.take_of_none (by rw [running])

/-- Settles O4: an input that does not move is told by its level, every other event is none. -/
theorem noEventWithoutItsConditions : Obligations.NoEventWithoutItsConditions := by
  intro s
  refine ⟨fun high => if_pos high, fun low => if_neg (Bool.eq_false_iff.1 low),
    fun high => if_pos high, fun low => if_neg (Bool.eq_false_iff.1 low),
    fun high => if_pos high, fun low => if_neg (Bool.eq_false_iff.1 low),
    exec_lastBitOfResponseSent_other, fun code named => exec_unknownCommand_named named,
    exec_loadEnd_running, fun i idle => State.take_of_none (State.slotDeadline_idle idle),
    fun other => State.take_of_none (State.writeBackoffEnd_none other),
    fun p tag other => State.take_of_none (State.readBackoffEnd_none other),
    fun i other => State.take_of_none (State.fetchBackoffEnd_none other),
    fun k free => State.take_of_none (State.idleExpiry_free free), fun p => ?_⟩
  exact ⟨fun high => if_pos high, fun low => if_neg (Bool.eq_false_iff.1 low),
    fun high => if_pos high, fun low => if_neg (Bool.eq_false_iff.1 low),
    fun other => exec_completionBegin_idle (State.not_completionTurn other),
    fun other => State.take_of_none (State.completionSent_none other),
    fun other => State.take_of_none (State.creditSent_none other)⟩

end Sys2Proof.Machine
end

section
/-! SUPPORT. What one event can do to the error log, and the commands that change it (O48). -/

namespace Sys2Proof.Machine

/-! ## The log -/

/-- An append to a log with room stores the record (R155). -/
theorem ErrorLog.append_of_room {l : ErrorLog} (r : LogRecord) (room : l.records.length < 8) :
    l.append r = { records := l.records ++ [r], overflow := l.overflow } :=
  if_pos room

/-- An append to a full log is counted (R155). -/
theorem ErrorLog.append_of_full {l : ErrorLog} (r : LogRecord) (full : 8 ≤ l.records.length) :
    l.append r = { records := l.records, overflow := min (l.overflow + 1) 255 } :=
  if_neg (Nat.not_lt.2 full)

/-- The bounds of the log (R155). -/
def ErrorLog.Bounded (l : ErrorLog) : Prop :=
  l.records.length ≤ 8 ∧ l.overflow ≤ 255

/-- What one event can do to the log (R155, R158, R159). -/
inductive LogTurn (l : ErrorLog) : ErrorLog → Prop
  | kept : LogTurn l l
  | appended (r : LogRecord) : LogTurn l (l.append r)
  | popped {oldest : LogRecord} {rest : List LogRecord} (records : l.records = oldest :: rest) :
      LogTurn l { l with records := rest }
  | cleared : LogTurn l { l with overflow := 0 }

theorem LogTurn.of_eq {l l' : ErrorLog} (same : l' = l) : LogTurn l l' :=
  same ▸ .kept

theorem LogTurn.keeps_bounds {l l' : ErrorLog} (turn : LogTurn l l') (bounded : l.Bounded) :
    l'.Bounded := by
  obtain ⟨records, overflow⟩ := bounded
  cases turn with
  | kept => exact ⟨records, overflow⟩
  | appended r => exact (l.append_bounded r records overflow).2
  | popped some =>
    rw [some] at records
    exact ⟨Nat.le_of_succ_le records, overflow⟩
  | cleared => exact ⟨records, Nat.zero_le _⟩

theorem State.logBounded_iff (s : State) : s.logBounded = true ↔ s.log.Bounded := by
  simp [State.logBounded, ErrorLog.Bounded]

/-! ## The log of a request -/

variable {s u : State}

theorem State.protocolError_log (s : State) (p : PortId) (cause : ProtocolCause) (r : Request) :
    (s.protocolError p cause r).log = s.log.append
      { time := s.startUp.counter, event := .portProtocol p cause r.tag? r.length? } := by
  simp [State.protocolError]

@[simp] theorem State.handOffRead_log (s : State) (p : PortId) (tag : Byte) (address : Addr)
    (length : Byte) : (s.handOffRead p tag address length).log = s.log := by
  have presented : ∀ fields w, (s.readPresented p tag fields w).log = s.log := by
    intro fields w
    unfold State.readPresented
    split
    · unfold State.readHit
      dsimp only
      split <;> simp [State.addRead]
    · rfl
    · rfl
  unfold State.handOffRead
  dsimp only
  split
  · split
    · simp [State.readUnmapped, State.addRead]
    · rfl
  · split
    · exact presented _ _
    · rfl

/-- A write that is turned away leaves the log; an accepted one is logged when it is posted with bad parity (R24). -/
theorem State.handOffWrite_logTurn (s : State) (p : PortId) (ack : Bool) (tag : Byte)
    (address : Addr) (data : List LinkByte) :
    LogTurn s.log (s.handOffWrite p ack tag address data).log := by
  unfold State.handOffWrite
  dsimp only
  split
  · have placed : (s.takePlace p ack tag).log = s.log := by
      unfold State.takePlace
      split <;> rfl
    rw [State.acceptWrite, State.enqueue_log, State.logParity]
    split
    · rw [State.logEvent_log, placed]
      exact .appended _
    · exact .of_eq placed
  · split
    · exact .of_eq (by simp [State.refuseWrite, State.addAckedWrite])
    · exact .of_eq (by simp [State.dropWrite])

@[simp] theorem State.handOffFence_log (s : State) (p : PortId) (tag : Byte) (scope : Scope)
    (purge : Bool) : (s.handOffFence p tag scope purge).log = s.log := by
  unfold State.handOffFence
  dsimp only
  split <;> simp

theorem State.handOff_logTurn (s : State) (p : PortId) (r : Request) :
    LogTurn s.log (s.handOff p r).log := by
  cases r with
  | read tag address length => exact .of_eq (s.handOffRead_log p tag address length)
  | write ack tag address length data => exact s.handOffWrite_logTurn p ack tag address data
  | fence tag scope purge => exact .of_eq (s.handOffFence_log p tag scope purge)
  | unknown => exact .kept

/-- A request that meets a protocol error is logged (R147); any other is spent and handed off. -/
theorem State.requestArrives_logTurn {p : PortId} {r : Request}
    (h : s.requestArrives p r = some u) : LogTurn s.log u.log := by
  have refused (v : State) (same : v.log = s.log) (cause : ProtocolCause) :
      LogTurn s.log (v.protocolError p cause r).log := by
    rw [State.protocolError_log, same]
    exact .appended _
  unfold State.requestArrives at h
  split at h
  · split at h <;> cases h
    · exact refused s rfl _
    · have spent : (s.setPort p (r.spend (s.port p))).log = s.log := State.setPort_log ..
      unfold State.handOver
      dsimp only
      split
      · exact refused s rfl _
      · split
        · exact refused _ spent _
        · exact spent ▸ State.handOff_logTurn _ p r
  · cases h

/-! ## The log of a slot's end -/

/-- A failed head record that is posted or unlinked is logged (R35, R37, R38). -/
theorem State.headFails_logTurn (s : State) (head : WriteRecord) (rest : List WriteRecord)
    (cause : MemCause) : LogTurn s.log (s.headFails head rest cause).log := by
  unfold State.headFails
  split
  · split
    · exact .of_eq (State.depart_log ..)
    · rw [State.depart_log]
      exact .appended _
  · split
    · rw [State.postedFails, State.depart_log]
      exact .appended _
    · rw [State.postedFreezes, State.depart_log]
      exact .appended _

theorem State.headAnswered_logTurn (s : State) (head : WriteRecord) (rest : List WriteRecord)
    (kind : RespKind) : LogTurn s.log (s.headAnswered head rest kind).log := by
  cases kind with
  | ok =>
    rw [State.headAnswered, State.headSucceeds, State.depart_log]
    split
    · split
      · exact .appended _
      · exact .kept
    · exact .kept
  | okPoison => exact s.headFails_logTurn head rest _
  | wait =>
    rw [State.headAnswered, State.headWaits]
    split
    · exact .kept
    · exact s.headFails_logTurn head rest _
  | fault => exact s.headFails_logTurn head rest _

@[simp] theorem State.readAnswered_log (s : State) (place : Nat) (r : Response) :
    (s.readAnswered place r).log = s.log := by
  unfold State.readAnswered
  split
  · rfl
  · split
    · rfl
    · rfl
    · split
      · simp
      · simp
      · unfold State.readWaits
        split <;> simp
      · simp

@[simp] theorem State.fetchSucceeds_log (s : State) (i : LineId) (poison : Bool)
    (line : LineData) : (s.fetchSucceeds i poison line).log = s.log :=
  foldl_keeps _ State.log (fun _ _ => by simp) _ s

@[simp] theorem State.fetchFails_log (s : State) (i : LineId) (cause : MemCause) :
    (s.fetchFails i cause).log = s.log :=
  foldl_keeps _ State.log (fun _ _ => by simp) _ s

@[simp] theorem State.fetchAnswered_log (s : State) (i : LineId) (r : Response) :
    (s.fetchAnswered i r).log = s.log := by
  unfold State.fetchAnswered
  split
  · simp
  · simp
  · unfold State.fetchWaits
    split
    · rfl
    · split <;> simp
  · simp

/-- Only a write record's owner logs what it is told (R29, R35, R37). -/
theorem State.deliver_logTurn (s : State) (owner : SlotOwner) (r : Response) :
    LogTurn s.log (s.deliver owner r).log := by
  cases owner with
  | write place =>
    rw [State.deliver, State.writeAnswered]
    split
    · exact .kept
    · split
      · exact s.headAnswered_logTurn _ _ _
      · exact .kept
  | demand entry =>
    cases entry with
    | none => exact .kept
    | some place => exact .of_eq (s.readAnswered_log place r)
  | fetch i => exact .of_eq (s.fetchAnswered_log i r)

/-- A response that no owner takes is logged (R115, R116). -/
theorem State.respond_logTurn (s : State) (r : Response) : LogTurn s.log (s.respond r).log := by
  unfold State.respond
  split
  · exact .appended _
  · exact .appended _
  · rename_i owner _ _ _
    exact (s.setSlot r.slot .free).deliver_logTurn owner r

theorem State.tellTimeout_logTurn (s : State) (owner : SlotOwner) :
    LogTurn s.log (s.tellTimeout owner).log := by
  cases owner with
  | write place =>
    rw [State.tellTimeout, State.writeTimesOut]
    split
    · exact .kept
    · split
      · exact s.headFails_logTurn _ _ _
      · exact .kept
  | demand entry =>
    cases entry with
    | none => exact .kept
    | some place => exact .of_eq (s.finish_log place _ _)
  | fetch i => exact .of_eq (s.fetchFails_log i _)

theorem State.slotDeadline_logTurn {i : SlotId} (h : s.slotDeadline i = some u) :
    LogTurn s.log u.log := by
  unfold State.slotDeadline at h
  split at h
  · cases h
  · cases h
  · rename_i owner line _ _
    split at h <;> cases h
    exact (s.setSlot i (.orphaned owner.kind line)).tellTimeout_logTurn owner

/-! ## Events that leave the log -/

theorem State.grant_log (h : s.grant = some u) : u.log = s.log := by
  have issued (v : State) (g : Grant) : (v.issueOwner g).log = v.log := by
    unfold State.issueOwner
    split
    · split <;> rfl
    · rfl
    · rfl
  unfold State.grant at h
  split at h <;> cases h
  exact issued _ _

theorem State.writeBackoffEnd_log (h : s.writeBackoffEnd = some u) : u.log = s.log := by
  unfold State.writeBackoffEnd at h
  split at h
  · cases h
  · split at h
    · split at h <;> cases h
      rfl
    all_goals cases h

theorem State.readBackoffEnd_log {p : PortId} {tag : Byte} (h : s.readBackoffEnd p tag = some u) :
    u.log = s.log := by
  unfold State.readBackoffEnd at h
  split at h
  · cases h
  · split at h
    · split at h <;> cases h
      rfl
    · cases h

theorem State.fetchBackoffEnd_log {i : LineId} (h : s.fetchBackoffEnd i = some u) :
    u.log = s.log := by
  unfold State.fetchBackoffEnd at h
  split at h
  · cases h
  · split at h
    · split at h <;> cases h
      rfl
    all_goals cases h

theorem State.idleExpiry_log {k : StreamId} (h : s.idleExpiry k = some u) : u.log = s.log := by
  unfold State.idleExpiry at h
  split at h
  · cases h
  · split at h <;> cases h
    rfl

theorem State.completionBegin_log {p : PortId} (h : s.completionBegin p = some u) :
    u.log = s.log := by
  unfold State.completionBegin at h
  split at h
  · split at h <;> cases h
    exact State.setPort_log ..
  · cases h

theorem State.completionSent_log {p : PortId} (h : s.completionSent p = some u) :
    u.log = s.log := by
  unfold State.completionSent at h
  split at h <;> cases h
  unfold State.freeEntry
  split <;> simp

theorem State.creditBegin_log {p : PortId} (h : s.creditBegin p = some u) : u.log = s.log := by
  unfold State.creditBegin at h
  split at h <;> cases h
  exact State.setPort_log ..

theorem State.creditSent_log {p : PortId} (h : s.creditSent p = some u) : u.log = s.log := by
  unfold State.creditSent at h
  split at h <;> cases h
  exact State.setPort_log ..

@[simp] theorem State.portDown_log (s : State) (p : PortId) : (s.portDown p).log = s.log := by
  unfold State.portDown
  split <;> simp

/-! ## The start-up unit -/

/-- A load that fails is logged (R189). -/
theorem State.endLoad_logTurn (s : State) (flash : List Byte) :
    LogTurn s.log (s.endLoad flash).log := by
  unfold State.endLoad
  dsimp only
  rw [State.linkUp_log, State.linkUp_log]
  split
  · exact .kept
  · exact .appended _

/-- A loss at a warm reset is logged (R164). -/
theorem State.warmReset_logTurn (s : State) : LogTurn s.log s.warmReset.log := by
  unfold State.warmReset State.logLoss
  split
  · exact .kept
  · exact .appended _

/-! ## Maintenance commands -/

theorem State.setWindow_log (s : State) (w : WindowId) (fields : WindowFields) :
    (s.setWindow w fields).1.log = s.log := by
  unfold State.setWindow
  split <;> rfl

theorem State.enableWindow_log (s : State) (w : WindowId) : (s.enableWindow w).1.log = s.log := by
  unfold State.enableWindow
  split <;> rfl

theorem State.disableWindow_log (s : State) (w : WindowId) :
    (s.disableWindow w).1.log = s.log := by
  unfold State.disableWindow
  split <;> rfl

theorem State.thawWindow_log (s : State) (w : WindowId) : (s.thawWindow w).1.log = s.log := by
  unfold State.thawWindow
  split <;> rfl

theorem State.setParams_log (s : State) (new : Params) : (s.setParams new).1.log = s.log := by
  have replaced : (s.replaceParams new).log = s.log := by
    unfold State.replaceParams
    dsimp only
    split <;> rfl
  unfold State.setParams
  split
  · rfl
  · unfold State.expireAtOnce
    split <;> exact replaced

theorem State.popLog_logTurn (s : State) : LogTurn s.log s.popLog.1.log := by
  unfold State.popLog
  split
  · exact .kept
  · rename_i records
    exact .popped records

/-- A reclaim that frees a slot is logged (R126). -/
theorem State.reclaimSlots_logTurn (s : State) : LogTurn s.log s.reclaimSlots.1.log := by
  unfold State.reclaimSlots
  dsimp only
  split
  · exact .appended _
  · exact .kept

theorem State.beginQuiesce_log (s : State) : s.beginQuiesce.1.log = s.log := by
  unfold State.beginQuiesce
  split <;> rfl

theorem State.resume_log (s : State) : s.resume.1.log = s.log := by
  unfold State.resume
  split <;> rfl

/-- While RUNNING a command has its effect, else none (R168). -/
theorem State.whenRunning_logTurn {r : State × Answer} (turn : LogTurn s.log r.1.log) :
    LogTurn s.log (s.whenRunning r).1.log := by
  unfold State.whenRunning
  split
  · exact turn
  · exact .kept

/-- A command on a window leaves the log when its effect on each window does. -/
theorem State.withWindow_log {f : WindowId → State × Answer} (n : Byte)
    (same : ∀ w, (f w).1.log = s.log) : (s.withWindow n f).1.log = s.log := by
  unfold State.withWindow
  split
  · rfl
  · exact same _

/-- Settles O48: the two commands while RUNNING, and the append by the room in the log. -/
theorem logPoppedClearedAppended : Obligations.LogPoppedClearedAppended := by
  refine ⟨fun s serving => ⟨fun oldest rest records => ?_, fun empty => ?_, ?_⟩,
    fun l r => ⟨l.append_of_room r, l.append_of_full r⟩⟩
  · rw [exec_popLog, execPopLog, State.takeCommand_serving serving, State.popLog, records]
    rfl
  · rw [exec_popLog, execPopLog, State.takeCommand_serving serving, State.popLog, empty]
    rfl
  · exact State.takeCommand_serving serving _ _

end Sys2Proof.Machine
end

section
/-! The alert line and the quiesce state at the end of an event (O2), and the log and the alert line after every
step (O53). -/

namespace Sys2Proof.Machine

variable {s : State}

/-! ## The end of an event -/

/-- The end of an event leaves all but the quiesce state and the alert line. -/
theorem State.settle_eq (s : State) :
    s.settle = { s with quiesce := s.settle.quiesce, alertLine := s.settle.alertLine } := by
  unfold State.settle State.driveAlert State.weighQuiesce
  split <;> rfl

/-- The conditions of R179, one by one. -/
theorem State.holdsNoWork_iff (s : State) : s.holdsNoWork = true ↔
    s.queue = [] ∧ s.tracker = [] ∧ ∀ i : SlotId, (s.memPort.slots[i]).isBusy = false := by
  simp only [State.holdsNoWork, Bool.and_eq_true, List.isEmpty_iff, decide_eq_true_eq,
    MemPort.count_eq_zero, and_assoc]

theorem ErrorLog.causeHolds_iff (l : ErrorLog) :
    l.causeHolds = true ↔ l.records ≠ [] ∨ 0 < l.overflow := by
  simp [ErrorLog.causeHolds]

theorem WindowTable.causeHolds_iff (t : WindowTable) :
    t.causeHolds = true ↔ ∃ n : WindowId, (t.windows[n]).state = .frozen := by
  simp only [WindowTable.causeHolds, any_vector_list, decide_eq_true_eq]

theorem State.portCauseHolds_iff (s : State) :
    s.portCauseHolds = true ↔ s.portA.state = .faulted ∨ s.portB.state = .faulted := by
  simp [State.portCauseHolds]

/-- The causes of R160, each with its enable. -/
theorem State.alertDue_iff (s : State) : s.alertDue = true ↔
    (s.startUp.mask.log = true ∧ (s.log.records ≠ [] ∨ 0 < s.log.overflow)) ∨
      (s.startUp.mask.freeze = true ∧ ∃ n : WindowId, (s.table.windows[n]).state = .frozen) ∨
      (s.startUp.mask.port = true ∧ (s.portA.state = .faulted ∨ s.portB.state = .faulted)) := by
  simp only [State.alertDue, Bool.or_eq_true, Bool.and_eq_true, ErrorLog.causeHolds_iff,
    WindowTable.causeHolds_iff, State.portCauseHolds_iff, or_assoc]

/-- Settles O2: the two written fields, each by its conditions. -/
theorem endOfEventSettles : Obligations.EndOfEventSettles := by
  intro s
  rw [State.settle_eq, State.settle_quiesce, State.settle_alertLine]
  congr 1
  case e_alertLine => rw [Bool.eq_iff_iff, decide_eq_true_iff, State.alertDue_iff]
  case e_quiesce =>
    simp only [State.holdsNoWork_iff]
    cases s.quiesce <;> rfl

/-! ## The alert line -/

/-- The log, the alert line and whether an enabled cause holds. -/
structure AlertView where
  log : ErrorLog
  line : Bool
  due : Bool

/-- What the laws of O53 read. -/
def State.alertView (s : State) : AlertView where
  log := s.log
  line := s.alertLine
  due := s.alertDue

/-- The part after a power-on reset: an empty log, the line released and no cause (R184). -/
def AlertView.blank : AlertView where
  log := { records := [], overflow := 0 }
  line := false
  due := false

@[simp] theorem State.setResetInput_alertView (s : State) (p : PortId) (level : Bool) :
    (s.setResetInput p level).alertView = s.alertView := by
  cases p <;> rfl

@[simp] theorem State.setLinkReady_alertView (s : State) (p : PortId) (level : Bool) :
    (s.setLinkReady p level).alertView = s.alertView := by
  cases p <;> rfl

theorem State.tick_alertView (s : State) : s.tick.alertView = s.alertView := by
  unfold State.tick
  split <;> rfl

theorem State.powerOnValues_alertView (s : State) : s.powerOnValues.alertView = .blank := rfl

theorem State.heldInReset_alertView (s : State) : s.heldInReset.alertView = .blank := rfl

/-! ## Every command -/

/-- A command leaves the log and the alert line as they were, or blank, or one turn of the log is taken and the line
follows its causes. -/
inductive Alerted (s : State) : State → Prop
  | unmoved {t : State} (same : t.alertView = s.alertView) : Alerted s t
  | poweredOn {t : State} (blank : t.alertView = .blank) : Alerted s t
  | settled {u : State} (turn : LogTurn s.log u.log) : Alerted s u.settle

theorem Alerted.refl (s : State) : Alerted s s :=
  .unmoved rfl

/-- An event of an input, taken after its level has been followed. -/
theorem Alerted.of_input {s' t : State} {event : Option State} (h : s'.take event = .next t)
    (same : s'.alertView = s.alertView) (turn : ∀ u, event = some u → LogTurn s'.log u.log) :
    Alerted s t := by
  obtain rfl | ⟨u, taken, _, rfl⟩ := State.take_eq_next h
  · exact .unmoved same
  · have log : s'.log = s.log := congrArg AlertView.log same
    exact .settled (log ▸ turn u taken)

theorem Alerted.of_event {t : State} {event : Option State} (h : s.take event = .next t)
    (turn : ∀ u, event = some u → LogTurn s.log u.log) : Alerted s t :=
  .of_input h rfl turn

theorem Alerted.of_command {t : State} {i : Instr} {r : State × Answer}
    (h : s.takeCommand i r = .next t) (turn : LogTurn s.log r.1.log) : Alerted s t := by
  refine Alerted.of_event h fun u taken => ?_
  split at taken <;> cases taken
  exact turn

/-- A command that leaves the log, answered while RUNNING. -/
theorem Alerted.of_quiet {t : State} {i : Instr} {r : State × Answer}
    (h : s.takeCommand i (s.whenRunning r) = .next t) (same : r.1.log = s.log) : Alerted s t :=
  .of_command h (State.whenRunning_logTurn (.of_eq same))

/-- A command of the maintenance port. -/
theorem exec_maintenance_alerted {i : Instr} {t : State} (h : exec i s = .next t)
    (command : i.commandPart ≠ []) : Alerted s t := by
  cases i with
  | unknownCommand code =>
    rw [exec_unknownCommand, execUnknownCommand] at h
    split at h
    · cases h
      exact .refl s
    · exact .of_command h .kept
  | getStatus => exact .of_command h .kept
  | getWindow n => exact .of_quiet h (State.withWindow_log n fun _ => rfl)
  | setWindow n record =>
    refine .of_quiet h (State.withWindow_log n fun w => ?_)
    split
    · rfl
    · exact s.setWindow_log w _
  | enableWindow n => exact .of_quiet h (State.withWindow_log n s.enableWindow_log)
  | disableWindow n => exact .of_quiet h (State.withWindow_log n s.disableWindow_log)
  | thawWindow n => exact .of_quiet h (State.withWindow_log n s.thawWindow_log)
  | getCatchall => exact .of_quiet h rfl
  | setCatchall mode retryCode =>
    refine .of_quiet h ?_
    split <;> rfl
  | getParams => exact .of_quiet h rfl
  | setParams params =>
    refine .of_quiet h ?_
    split
    · rfl
    · exact s.setParams_log _
  | setAlertMask mask =>
    refine .of_quiet h ?_
    split <;> rfl
  | peekLog => exact .of_quiet h rfl
  | popLog => exact .of_command h (State.whenRunning_logTurn s.popLog_logTurn)
  | clearOverflow => exact .of_command h (State.whenRunning_logTurn .cleared)
  | reclaimSlots => exact .of_command h (State.whenRunning_logTurn s.reclaimSlots_logTurn)
  | quiesce => exact .of_quiet h s.beginQuiesce_log
  | resume => exact .of_quiet h s.resume_log
  | _ => exact absurd rfl command

/-- What any command does to the log and to the alert line. -/
theorem exec_alerted {i : Instr} {t : State} (h : exec i s = .next t) : Alerted s t := by
  cases i with
  | powerOnResetAssert =>
    rw [exec_powerOnResetAssert, execPowerOnResetAssert] at h
    split at h <;> cases h
    · exact .refl s
    · exact .poweredOn s.heldInReset_alertView
  | powerOnResetRelease =>
    rw [exec_powerOnResetRelease, execPowerOnResetRelease] at h
    split at h <;> cases h
    · exact .poweredOn s.powerOnValues_alertView
    · exact .refl s
  | loadEnd flash =>
    refine .of_event h fun u taken => ?_
    split at taken <;> cases taken
    exact s.endLoad_logTurn flash
  | warmResetAssert =>
    rw [exec_warmResetAssert, execWarmResetAssert] at h
    split at h
    · cases h
      exact .refl s
    · refine .of_input (s' := s.setWarmInput true) h rfl fun u taken => ?_
      cases taken
      exact State.warmReset_logTurn _
  | warmResetRelease =>
    rw [exec_warmResetRelease, execWarmResetRelease] at h
    split at h
    · refine .of_input (s' := s.setWarmInput false) h rfl fun u taken => ?_
      cases taken
      exact .of_eq (by rw [State.linkUp_log, State.linkUp_log])
    · cases h
      exact .refl s
  | portResetAssert p =>
    rw [exec_portResetAssert, execPortResetAssert] at h
    split at h
    · cases h
      exact .refl s
    · refine .of_input h (s.setResetInput_alertView p true) fun u taken => ?_
      cases taken
      exact .of_eq (State.portDown_log _ p)
  | linkReadyLoss p =>
    rw [exec_linkReadyLoss, execLinkReadyLoss] at h
    split at h
    · refine .of_input h (s.setLinkReady_alertView p false) fun u taken => ?_
      cases taken
      exact .of_eq (State.portDown_log _ p)
    · cases h
      exact .refl s
  | portResetRelease p =>
    rw [exec_portResetRelease, execPortResetRelease] at h
    split at h
    · refine .of_input h (s.setResetInput_alertView p false) fun u taken => ?_
      cases taken
      exact .of_eq (State.linkUp_log _ p)
    · cases h
      exact .refl s
  | linkReadyArrival p =>
    rw [exec_linkReadyArrival, execLinkReadyArrival] at h
    split at h
    · cases h
      exact .refl s
    · refine .of_input h (s.setLinkReady_alertView p true) fun u taken => ?_
      cases taken
      exact .of_eq (State.linkUp_log _ p)
  | requestRead p rest => exact .of_event h fun _ taken => State.requestArrives_logTurn taken
  | requestWrite p rest => exact .of_event h fun _ taken => State.requestArrives_logTurn taken
  | requestFence p rest => exact .of_event h fun _ taken => State.requestArrives_logTurn taken
  | requestOfNoKnownKind p message =>
    exact .of_event h fun _ taken => State.requestArrives_logTurn taken
  | grant => exact .of_event h fun _ taken => .of_eq (State.grant_log taken)
  | response message =>
    rw [exec_response, execResponse] at h
    refine .of_event h fun u taken => ?_
    cases taken
    exact s.respond_logTurn _
  | slotDeadline i => exact .of_event h fun _ taken => State.slotDeadline_logTurn taken
  | writeBackoffEnd => exact .of_event h fun _ taken => .of_eq (State.writeBackoffEnd_log taken)
  | readBackoffEnd p tag => exact .of_event h fun _ taken => .of_eq (State.readBackoffEnd_log taken)
  | fetchBackoffEnd i => exact .of_event h fun _ taken => .of_eq (State.fetchBackoffEnd_log taken)
  | idleExpiry k => exact .of_event h fun _ taken => .of_eq (State.idleExpiry_log taken)
  | completionBegin p => exact .of_event h fun _ taken => .of_eq (State.completionBegin_log taken)
  | completionSent p => exact .of_event h fun _ taken => .of_eq (State.completionSent_log taken)
  | creditBegin p => exact .of_event h fun _ taken => .of_eq (State.creditBegin_log taken)
  | creditSent p => exact .of_event h fun _ taken => .of_eq (State.creditSent_log taken)
  | selectAssert =>
    rw [exec_selectAssert, execSelectAssert] at h
    split at h
    · cases h
      exact .refl s
    · refine .of_input (s' := s.setSelect true) h rfl fun u taken => ?_
      cases taken
      exact .kept
  | selectRelease =>
    rw [exec_selectRelease, execSelectRelease] at h
    split at h
    · refine .of_input (s' := s.setSelect false) h rfl fun u taken => ?_
      cases taken
      exact .kept
    · cases h
      exact .refl s
  | lastBitOfResponseSent =>
    refine .of_event h fun u taken => ?_
    split at taken <;> cases taken
    exact .kept
  | _ => exact exec_maintenance_alerted h (List.cons_ne_nil _ _)

/-- What any step does to the log and to the alert line. -/
theorem step_alerted {t : State} (h : step s = .next t) : Alerted s t := by
  unfold step at h
  split at h
  · cases h
    exact .unmoved s.tick_alertView
  · cases exec_alerted h with
    | unmoved same => exact .unmoved same
    | poweredOn blank => exact .poweredOn blank
    | settled turn => exact .settled turn

/-! ## The laws -/

theorem Alerted.keeps_bounds {t : State} (alerted : Alerted s t) (bounded : s.log.Bounded) :
    t.log.Bounded := by
  cases alerted with
  | unmoved same =>
    have log : t.log = s.log := congrArg AlertView.log same
    exact log ▸ bounded
  | poweredOn blank =>
    have log : t.log = AlertView.blank.log := congrArg AlertView.log blank
    exact log ▸ ⟨Nat.zero_le _, Nat.zero_le _⟩
  | settled turn =>
    rw [State.settle_log]
    exact turn.keeps_bounds bounded

theorem State.alertFollows_iff (s : State) : s.alertFollows = true ↔ s.alertView.line = s.alertView.due :=
  decide_eq_true_iff

theorem Alerted.keeps_alertFollows {t : State} (alerted : Alerted s t)
    (follows : s.alertFollows = true) : t.alertFollows = true := by
  rw [State.alertFollows_iff] at follows ⊢
  cases alerted with
  | unmoved same => rw [same, follows]
  | poweredOn blank => rw [blank]; rfl
  | settled _ => exact (State.settle_alertLine _).trans (State.settle_alertDue _).symm

/-- Settles O53: a step takes at most one turn of the log, and the line is set anew wherever a cause can change. -/
theorem stepKeepsLogAndAlert : Obligations.StepKeepsLogAndAlert := by
  refine ⟨fun s t bounded h => ?_, fun s t follows h => (step_alerted h).keeps_alertFollows follows⟩
  rw [State.logBounded_iff] at bounded ⊢
  exact (step_alerted h).keeps_bounds bounded

end Sys2Proof.Machine
end

section
/-! The data of the read commands, byte by byte, and the commands that send it (O44, O45). -/

namespace Sys2Proof.Machine

/-! ## Vectors as lists -/

/-- The elements of a vector in the order of their positions. -/
theorem vector_list_eq {α : Type} {n : Nat} (v : Vector α n) :
    v.toArray.toList = (List.finRange n).map fun i => v[i] :=
  List.ext_getElem (by simp) fun i _ _ => by simp

theorem allLines_eq : allLines = List.finRange 16 := by decide

theorem allStreams_eq : allStreams = List.finRange 4 := by decide

theorem allWindows_eq : allWindows = List.finRange 8 := by decide

/-- A count of pool lines is over lines 0 to 15. -/
theorem ReadAhead.countLines_eq (ra : ReadAhead) (f : Option Line → Bool) :
    ra.countLines f = allLines.countP fun i => f ra.lines[i] := by
  rw [ReadAhead.countLines, vector_list_eq, List.countP_map, allLines_eq]
  rfl

theorem ReadAhead.activeStreams_eq (ra : ReadAhead) :
    ra.activeStreams = allStreams.countP fun k => ra.streams[k].isSome := by
  rw [ReadAhead.activeStreams, vector_list_eq, List.countP_map, allStreams_eq]
  rfl

/-! ## Flags -/

/-- Three flags, the first in bit 0 (Section 11, opening). -/
theorem packFlags_triple (first second third : Bool) :
    packFlags [first, second, third] =
      (if first then 1 else 0) + (if second then 2 else 0) + (if third then 4 else 0) := by
  cases first <;> cases second <;> cases third <;> rfl

/-- The queue is halted exactly while a slot holds an ORPHANED write (R34). -/
theorem MemPort.halted_iff (m : MemPort) :
    m.halted = true ↔ ∃ (i : SlotId) (line : Addr), m.slots[i] = .orphaned .write line := by
  rw [MemPort.halted, Bool.not_eq_true', List.isEmpty_eq_false_iff_exists_mem]
  simp only [MemPort.mem_orphanedWriteLines]
  exact exists_comm

/-! ## The status of the part -/

theorem Line.isPending_iff (l : Line) :
    l.isPending = true ↔ ∃ deadline, l.state = .pending deadline := by
  unfold Line.isPending
  cases l.state <;> simp

/-- A line that is neither PENDING nor VALID is FETCHING (R69). -/
theorem Line.fetching_eq (l : Line) :
    (!l.isPending && !l.isValid) = decide (l.state = .fetching) := by
  unfold Line.isPending Line.isValid
  cases l.state <;> rfl

theorem Slot.bytes_busy (owner : SlotOwner) (line : Addr) (deadline : Timer) :
    (Slot.busy owner line deadline).bytes = 1 ::
      (match owner with
        | .write _ => SlotKind.write
        | .demand _ => .demand
        | .fetch _ => .fetch).code :: addrBytes line := by
  cases owner <;> rfl

/-- The queue's halt in one byte (Table 11-9). -/
theorem MemPort.halted_byte (m : MemPort) : flagByte m.halted =
    if ∃ (i : SlotId) (line : Addr), m.slots[i] = .orphaned .write line then 1 else 0 := by
  simp only [flagByte, MemPort.halted_iff]

theorem MemPort.slots_bytes (m : MemPort) : (m.slots.toArray.toList.map Slot.bytes).flatten =
    ([0, 1, 2, 3] : List SlotId).flatMap fun i => (m.slots[i]).bytes := by
  rw [MemPort.slots_eq]
  rfl

theorem WindowTable.states_bytes (t : WindowTable) :
    (t.windows.toArray.toList.map fun w => w.state.code) =
      allWindows.map fun n => (t.windows[n]).state.code := by
  rw [vector_list_eq, List.map_map, allWindows_eq]
  rfl

/-- The lines by state, each counted over the lines 0 to 15 (Table 11-9). -/
theorem ReadAhead.lineCounts_eq (ra : ReadAhead) :
    let lines (f : Option Line → Bool) : Byte := byteOf (allLines.countP fun i => f ra.lines[i])
    ra.lineCounts = [lines Option.isNone, lines fun l => l.any Line.isPending,
      lines fun l => l.any fun x => decide (x.state = .fetching), lines fun l => l.any Line.isValid] := by
  simp only [ReadAhead.lineCounts, ReadAhead.countLines_eq, Line.fetching_eq]

/-! ## Causes of a failed load -/

/-- Only BAD_FIELD names a part of the image (R153). -/
theorem LoadCause.part_eq_none {cause : LoadCause} (whole : ∀ part, cause ≠ .badField part) :
    cause.part = none := by
  cases cause with
  | badField part => exact absurd rfl (whole part)
  | _ => rfl

theorem LoadResult.partCode_failed {cause : LoadCause} (whole : ∀ part, cause ≠ .badField part) :
    LoadResult.partCode (.failed cause) = 0 := by
  rw [LoadResult.partCode, LoadCause.part_eq_none whole]

/-! ## The data by position -/

/-- Settles O45: most layouts are the model's own lists of bytes. The flags and the counts over vectors are told by their
lemmas, and a log record's bytes by the fields that its kind carries. -/
theorem maintenanceDataByPosition : Obligations.MaintenanceDataByPosition := by
  refine ⟨fun _ => rfl, fun _ => rfl, fun _ => rfl, fun _ => rfl, fun w => ?window, fun _ => rfl,
    fun p m => ?params, fun _ => rfl, ⟨rfl, Slot.bytes_busy, fun _ _ => rfl⟩, Line.isPending_iff,
    fun s => ?status, by decide, fun _ => ⟨rfl, rfl⟩, fun _ => ⟨rfl, LoadResult.partCode_failed⟩,
    fun time => ?record⟩
  case window => simp only [Window.bytes, List.append_assoc, List.cons_append, List.nil_append]
  case params =>
    rw [paramData, AlertMask.code, packFlags_triple]
    rfl
  case status =>
    rw [State.statusBytes, MemPort.halted_byte, MemPort.slots_bytes, WindowTable.states_bytes,
      ReadAhead.activeStreams_eq, ReadAhead.lineCounts_eq]
    simp only [List.append_assoc]
    rfl
  case record =>
    simp only [LogRecord.bytes, LogEvent.fields, optByte]
    refine ⟨fun _ _ _ _ _ _ => ⟨rfl, fun _ => rfl⟩, fun _ _ _ _ _ _ _ => rfl,
      fun _ _ _ _ => ⟨rfl, fun _ => rfl⟩, fun _ _ _ _ => rfl, fun _ _ => rfl,
      fun port cause tag length => ?protocol, fun _ _ => rfl, fun cause whole => ?fallback,
      fun _ => rfl, fun _ => rfl⟩
    case protocol => cases tag <;> cases length <;> rfl
    case fallback =>
      rw [LoadCause.part_eq_none whole]
      rfl

/-! ## The read commands -/

theorem Slot.bytes_length (slot : Slot) : slot.bytes.length = 7 := by
  cases slot <;> rfl

theorem LogRecord.bytes_length (r : LogRecord) : r.bytes.length = 26 := rfl

/-- Of the 65 bytes the slots hold 28 and the windows 8 (Table 11-9). -/
theorem State.statusBytes_length (s : State) : s.statusBytes.length = 65 := by
  rw [State.statusBytes, MemPort.slots_bytes, WindowTable.states_bytes]
  simp [Port.bytes, Slot.bytes_length, timeBytes, ReadAhead.lineCounts, allWindows]

/-- Settles O44: each command answers with the data of the present state, of the length of its layout. -/
theorem readCommandsChangeNothing : Obligations.ReadCommandsChangeNothing := by
  refine ⟨fun s receiving => ⟨State.takeCommand_answering receiving _ _, s.statusBytes_length⟩,
    fun s serving => ⟨fun n w names => ⟨State.takeCommand_window serving _ _ names, rfl⟩,
      State.takeCommand_serving serving _ _, rfl, State.takeCommand_serving serving _ _, rfl, ?_,
      LogRecord.bytes_length⟩⟩
  rw [exec_peekLog, execPeekLog, State.takeCommand_serving serving]
  rfl

end Sys2Proof.Machine
end

section
/-! The maintenance port: its frames, QUIESCE and RESUME, and the decoder of command parts (O41, O50, O51). -/

namespace Sys2Proof.Machine

/-! ## Frames -/

theorem Maintenance.selected_eq (m : Maintenance) : m.selected =
    if m.frame = .idle then { frame := .receiving, commandPart := [], response := [] } else m := by
  unfold Maintenance.selected
  cases frame : m.frame <;> rfl

/-- The bits on out, as the bits of each byte from bit 7 down (Section 11.3). -/
theorem Maintenance.outBits_eq (m : Maintenance) : m.outBits =
    if m.frame = .answering then
      false :: m.response.flatMap fun b => (List.range 8).map fun i => b.getLsbD (7 - i)
    else [] := by
  unfold Maintenance.outBits
  cases frame : m.frame with
  | answering => rfl
  | idle => rfl
  | receiving => rfl
  | spent => rfl

section Frames

variable {s : State}

theorem exec_selectAssert_low (awake : s.awake) (low : s.pins.select = false) :
    exec .selectAssert s = .next { s.setSelect true with maint := s.maint.selected }.settle :=
  (if_neg (Bool.eq_false_iff.1 low)).trans ((s.setSelect true).take_some _ awake)

theorem exec_selectRelease_high (awake : s.awake) (high : s.pins.select = true) :
    exec .selectRelease s = .next { s.setSelect false with maint := s.maint.released }.settle :=
  (if_pos high).trans ((s.setSelect false).take_some _ awake)

theorem exec_lastBitOfResponseSent_answering (awake : s.awake) (answering : s.maint.frame = .answering) :
    exec .lastBitOfResponseSent s =
      .next ({ s with maint := { s.maint with frame := .spent } } : State).settle := by
  rw [exec_lastBitOfResponseSent, execLastBitOfResponseSent, answering]
  exact s.take_some _ awake

/-- Outside RECEIVING no maintenance command is taken (R166, log 16). -/
theorem exec_of_not_receiving (i : Instr) (other : s.maint.frame ≠ .receiving) (part : i.commandPart ≠ []) :
    exec i s = .next s := by
  by_cases status : i = .getStatus
  · rw [status]
    exact s.takeCommand_ignored _ _ other
  by_cases unknown : ∃ code, i = .unknownCommand code
  · obtain ⟨code, rfl⟩ := unknown
    rw [exec_unknownCommand, execUnknownCommand]
    split
    · rfl
    · exact s.takeCommand_ignored _ _ other
  · obtain ⟨r, weighed⟩ := exec_whenRunning s part status fun code h => unknown ⟨code, h⟩
    rw [weighed, s.takeCommand_ignored _ _ other]

end Frames

/-- Settles O41: one clause for each move of the frame; an unknown code is weighed as in O42. -/
theorem framesFollowSelect : Obligations.FramesFollowSelect := by
  intro s awake
  refine ⟨fun low => ?_, exec_selectRelease_high awake, exec_lastBitOfResponseSent_answering awake,
    fun code receiving => commandsWeighedInOrder.1 s code ⟨awake, receiving⟩,
    exec_of_not_receiving, s.maint.outBits_eq⟩
  rw [exec_selectAssert_low awake low, Maintenance.selected_eq]
  rfl

/-! ## QUIESCE and RESUME -/

section Quiesce

variable {s : State}

theorem exec_quiesce_serving (serving : s.serving) :
    exec .quiesce s = s.beginQuiesce.1.answering [0x10] s.beginQuiesce.2.bytes :=
  State.takeCommand_serving serving _ _

theorem exec_resume_serving (serving : s.serving) :
    exec .resume s = s.resume.1.answering [0x11] s.resume.2.bytes :=
  State.takeCommand_serving serving _ _

/-- In RUNNING the conditions of R179 are weighed at once, and the response carries the state they give (R178). -/
theorem State.beginQuiesce_running (running : s.quiesce = .running) :
    let left : QuiesceState := if s.holdsNoWork then .quiesced else .quiescing
    s.beginQuiesce = ({ s with quiesce := left }, .done [left.code]) := by
  rw [State.beginQuiesce, running]
  rfl

theorem State.beginQuiesce_refused (other : s.quiesce ≠ .running) : s.beginQuiesce = (s, .refused) := by
  unfold State.beginQuiesce
  cases quiesce : s.quiesce with
  | running => exact absurd quiesce other
  | quiescing => rfl
  | quiesced => rfl

theorem State.resume_running (running : s.quiesce = .running) : s.resume = (s, .refused) := by
  rw [State.resume, running]

theorem State.resume_taken (other : s.quiesce ≠ .running) :
    s.resume = ({ s with quiesce := .running }, .done []) := by
  unfold State.resume
  cases quiesce : s.quiesce with
  | running => exact absurd quiesce other
  | quiescing => rfl
  | quiesced => rfl

end Quiesce

/-- Settles O50: the state that QUIESCE leaves is told by `State.holdsNoWork`, the three conditions of R179. -/
theorem quiesceAndResume : Obligations.QuiesceAndResume := by
  intro s serving
  rw [exec_quiesce_serving serving, exec_resume_serving serving, ← State.holdsNoWork_iff]
  refine ⟨fun running => ⟨fun idle => ?_, fun working => ?_⟩, fun other => ?_, fun other => ?_,
    fun running => ?_⟩
  · rw [State.beginQuiesce_running running, if_pos idle]
    rfl
  · rw [State.beginQuiesce_running running, if_neg working]
    rfl
  · rw [State.beginQuiesce_refused other]
    rfl
  · rw [State.resume_taken other]
    rfl
  · rw [State.resume_running running]
    rfl

/-! ## Decoding -/

theorem halfAt_halfBytes (h : BitVec 16) : halfAt (halfBytes h) 0 = h := by
  change h.extractLsb' 8 8 ++ h.extractLsb' 0 8 = h
  rw [BitVec.extractLsb'_append_extractLsb'_eq_extractLsb' (by rfl)]
  exact BitVec.extractLsb'_eq_self

/-- A window record's bytes after the window's number read back as the record (Table 11-7). -/
theorem windowBytesAt_bytes (n : Byte) (w : WindowBytes) : windowBytesAt (n :: w.bytes) 1 = w := by
  have base : addrAt (n :: w.bytes) 1 = w.base := addrAt_addrBytes w.base
  have target : addrAt (n :: w.bytes) (1 + 6) = w.targetBase := addrAt_addrBytes w.targetBase
  rw [windowBytesAt, base, target]
  rfl

theorem paramBytesAt_bytes (p : ParamBytes) : paramBytesAt p.bytes 0 = p := by
  have timeout : halfAt p.bytes 0 = p.responseTimeout := halfAt_halfBytes p.responseTimeout
  rw [paramBytesAt, timeout]
  rfl

theorem commandOf_setWindow (n : Byte) (record : WindowBytes) :
    commandOf 0x03 (n :: record.bytes) = .setWindow n record :=
  congrArg (Instr.setWindow n) (windowBytesAt_bytes n record)

theorem commandOf_setParams (params : ParamBytes) : commandOf 0x0A params.bytes = .setParams params :=
  congrArg Instr.setParams (paramBytesAt_bytes params)

/-- A code that names no command calls for no count of argument bytes. -/
theorem argumentCount_eq_none {code : Byte} (unnamed : knownCode code = false) :
    argumentCount code = none := by
  unfold argumentCount
  split
  case h_18 => rfl
  all_goals
    rename_i value
    simp [knownCode, value] at unnamed

/-- A whole command part gives its command, and the bytes after it are ignored (R166, R167). -/
theorem decodeCommandPart_whole {code : Byte} {args : List Byte}
    (counted : argumentCount code = some args.length) (after : List Byte) :
    decodeCommandPart (code :: args ++ after) = some (commandOf code args) := by
  rw [List.cons_append, decodeCommandPart, counted]
  dsimp only
  rw [if_neg (by simp), List.take_left]

/-- A code that names no command is UNKNOWN_COMMAND by itself (R167). -/
theorem decodeCommandPart_unknown {code : Byte} (unnamed : knownCode code = false) (after : List Byte) :
    decodeCommandPart ([code] ++ after) = some (.unknownCommand code) := by
  rw [List.singleton_append, decodeCommandPart, argumentCount_eq_none unnamed]

/-- Settles O51: every command of Table 11-6 has as many argument bytes as its code calls for, and they read back as they
were. Only the two records have fields of more than one byte. -/
theorem decodeOfCommandPart : Obligations.DecodeOfCommandPart := by
  intro i formed part after
  cases i with
  | unknownCommand code => exact decodeCommandPart_unknown (by simpa [Instr.wellFormed] using formed) after
  | getStatus => exact decodeCommandPart_whole rfl after
  | getWindow n => exact decodeCommandPart_whole (args := [n]) rfl after
  | setWindow n record =>
    exact (decodeCommandPart_whole (args := n :: record.bytes) rfl after).trans
      (congrArg some (commandOf_setWindow n record))
  | enableWindow n => exact decodeCommandPart_whole (args := [n]) rfl after
  | disableWindow n => exact decodeCommandPart_whole (args := [n]) rfl after
  | thawWindow n => exact decodeCommandPart_whole (args := [n]) rfl after
  | getCatchall => exact decodeCommandPart_whole rfl after
  | setCatchall mode retryCode => exact decodeCommandPart_whole (args := [mode, retryCode]) rfl after
  | getParams => exact decodeCommandPart_whole rfl after
  | setParams params =>
    exact (decodeCommandPart_whole (args := params.bytes) rfl after).trans
      (congrArg some (commandOf_setParams params))
  | setAlertMask mask => exact decodeCommandPart_whole (args := [mask]) rfl after
  | peekLog => exact decodeCommandPart_whole rfl after
  | popLog => exact decodeCommandPart_whole rfl after
  | clearOverflow => exact decodeCommandPart_whole rfl after
  | reclaimSlots => exact decodeCommandPart_whole rfl after
  | quiesce => exact decodeCommandPart_whole rfl after
  | resume => exact decodeCommandPart_whole rfl after
  | _ => exact absurd rfl part

end Sys2Proof.Machine
end

section
/-! SUPPORT. The step (O1), what the asserted power-on reset holds back (O3), and the laws at its release (O52). -/

namespace Sys2Proof.Machine

/-! ## The step -/

theorem step_waiting {s : State} {c : Instr} {rest : List Instr} (waiting : s.pending = c :: rest) :
    step s = exec c { s with pending := rest } := by
  rw [step, waiting]

theorem step_empty {s : State} (empty : s.pending = []) : step s = .next s.tick := by
  rw [step, empty]

/-- A tick moves the counter alone, and not while the power-on reset input is asserted (R193). -/
theorem State.tick_eq (s : State) : s.tick = { s with
    startUp := { s.startUp with
      counter := if s.pins.powerOnReset then s.startUp.counter else s.startUp.counter + 1 } } := by
  unfold State.tick
  split <;> rfl

/-- Settles O1: the queue is empty or has a front, and an empty one is the tick. -/
theorem stepRunsFrontCommandOrTicks : Obligations.StepRunsFrontCommandOrTicks := by
  refine fun s => ⟨fun c rest waiting => step_waiting waiting, fun empty => ?_⟩
  rw [step_empty empty, State.tick_eq]

/-! ## While the power-on reset is asserted -/

section Held

variable {s moved : State} {event : Option State} {high : Bool}

/-- An input that rises is followed, and the event of its rise is not taken (R184; log 5). -/
theorem State.rise_held (held : moved.pins.powerOnReset = true) (still : high = true → moved = s) :
    (if high then .next s else moved.take event) = .next moved := by
  cases high with
  | true => exact congrArg Host.Outcome.next (still rfl).symm
  | false => exact moved.take_held event held

/-- An input that falls is followed in the same way. -/
theorem State.fall_held (held : moved.pins.powerOnReset = true) (still : high = false → moved = s) :
    (if high then moved.take event else .next s) = .next moved := by
  cases high with
  | true => exact moved.take_held event held
  | false => exact congrArg Host.Outcome.next (still rfl).symm

end Held

/-! ## An input already at its level -/

theorem State.setWarmInput_self {s : State} {level : Bool} (same : s.pins.warmReset = level) :
    s.setWarmInput level = s := by
  rw [← same]
  rfl

theorem State.setSelect_self {s : State} {level : Bool} (same : s.pins.select = level) :
    s.setSelect level = s := by
  rw [← same]
  rfl

theorem State.setResetInput_self {s : State} {p : PortId} {level : Bool}
    (same : (s.port p).resetInput = level) : s.setResetInput p level = s := by
  rw [← same]
  exact State.setPort_port_self s p

theorem State.setLinkReady_self {s : State} {p : PortId} {level : Bool}
    (same : (s.port p).linkReady = level) : s.setLinkReady p level = s := by
  rw [← same]
  exact State.setPort_port_self s p

/-- Settles O3: the eight input commands leave their level, and every other command is an event that is not taken. -/
theorem partHeldInPowerOnReset : Obligations.PartHeldInPowerOnReset := by
  intro i s held other
  have heldReset (p : PortId) (level : Bool) : (s.setResetInput p level).pins.powerOnReset = true :=
    (congrArg Pins.powerOnReset (State.setResetInput_pins s p level)).trans held
  have heldReady (p : PortId) (level : Bool) : (s.setLinkReady p level).pins.powerOnReset = true :=
    (congrArg Pins.powerOnReset (State.setLinkReady_pins s p level)).trans held
  cases i with
  | powerOnResetRelease => exact absurd rfl other
  | powerOnResetAssert => exact if_pos held
  | warmResetAssert => exact State.rise_held (moved := s.setWarmInput true) held State.setWarmInput_self
  | warmResetRelease => exact State.fall_held (moved := s.setWarmInput false) held State.setWarmInput_self
  | selectAssert => exact State.rise_held (moved := s.setSelect true) held State.setSelect_self
  | selectRelease => exact State.fall_held (moved := s.setSelect false) held State.setSelect_self
  | portResetAssert p => exact State.rise_held (heldReset p true) State.setResetInput_self
  | portResetRelease p => exact State.fall_held (heldReset p false) State.setResetInput_self
  | linkReadyArrival p => exact State.rise_held (heldReady p true) State.setLinkReady_self
  | linkReadyLoss p => exact State.fall_held (heldReady p false) State.setLinkReady_self
  | unknownCommand code =>
    change (if knownCode code then .next s else s.takeCommand (.unknownCommand code) (s, .unknown)) = .next s
    split
    · rfl
    · exact s.take_held _ held
  | response message => exact s.take_held (some (s.respond (parseResponse message))) held
  | _ => exact s.take_held _ held

/-! ## Right after the release of the power-on reset -/

theorem State.reset_blank : State.reset.Blank :=
  State.powerOnValues_blank State.reset

theorem State.reset_idle : State.reset.Idle := by
  intro p _
  refine ⟨?_, fun e mem => by cases mem⟩
  cases p <;> exact ⟨rfl, rfl, rfl, rfl⟩

/-- Nothing is held, and each port is owed its whole allocations (R184). -/
theorem State.reset_credited : State.reset.Credited where
  blank _ := State.reset_blank
  idle := State.reset_idle
  whole p := by cases p <;> exact ⟨rfl, rfl⟩

theorem State.reset_pooled : State.reset.Pooled where
  table := (WindowTable.fresh (c := CatchAll.fallback) (fun _ : Nat => Window.zero_fresh) rfl).1
  blank _ := State.reset_blank
  lawful := State.reset_blank.poolLawful.lawful
  windows := State.reset_blank.poolLawful.windows

theorem State.reset_workLawful : State.reset.WorkLawful where
  ordered := State.reset_blank.bare.ordered
  tail := fun r mem => by cases mem
  pooled := State.reset_pooled
  idle := State.reset_idle
  held := State.reset_blank.workHeld State.reset_idle

/-- Settles O52: the laws on work hold because the part is blank, and the others by the values of the reset. -/
theorem lawsHoldAtReset : Obligations.LawsHoldAtReset := by
  have work := State.reset_workLawful
  have credits : State.reset.creditsWhole = true := by
    rw [State.creditsWhole, Bool.and_assoc, Bool.and_eq_true, State.credited_iff]
    exact ⟨Params.default_valid, State.reset_credited⟩
  have oneWrite : OneWriteSlot State.reset.memPort.slots := by
    intro i j write
    rw [State.reset_blank.slots] at write
    cases write
  exact ⟨(State.logBounded_iff _).2 ⟨Nat.zero_le _, Nat.zero_le _⟩, rfl, Params.default_valid,
    (State.tableSound_iff_sound _).2 State.reset_pooled.table,
    (State.frozenDrained_iff _).2 fun r mem => (by cases mem), (State.tailQueued_iff _).2 work.tail,
    (State.quiesceFollows_iff _).2 ⟨nofun, nofun⟩, rfl, (State.oneWriteSlot_iff _).2 oneWrite, credits, rfl,
    (State.readsWeighed_iff _).2 ⟨work.ordered, fun e mem => (by cases mem)⟩,
    (State.poolBehindQueue_iff _).2 ⟨work.ordered, work.pooled, .of_empty rfl⟩, (State.workSound_iff _).2 work⟩

end Sys2Proof.Machine
end

section
/-! SUPPORT. The checks of a configuration load in their order (O7). -/

namespace Sys2Proof.Machine

/-! ## The field check -/

section Fields

variable {bytes : List Byte} {count first : Nat}

/-- The first invalid window record is named (R187). -/
theorem imageWindows_invalid {n : WindowId} (start : first ≤ n.val) (within : n.val < first + count)
    (invalid : imageWindow bytes (16 + 18 * n.val) = none)
    (before : ∀ m, first ≤ m → m < n.val → (imageWindow bytes (16 + 18 * m)).isSome) :
    imageWindows bytes count first = .error (.window n) := by
  induction count generalizing first with
  | zero => omega
  | succ count ih =>
    rw [imageWindows]
    rcases Nat.eq_or_lt_of_le start with here | later
    · rw [here, invalid, Fin.ofNat_val_eq_self]
    · obtain ⟨w, valid⟩ := Option.isSome_iff_exists.1 (before first le_rfl later)
      rw [valid, ih later (by omega) fun m le lt => before m (by omega) lt]

/-- Valid window records are read in order (R187). -/
theorem imageWindows_valid {ws : List Window}
    (valid : ∀ k < ws.length, imageWindow bytes (16 + 18 * (first + k)) = ws[k]?) :
    imageWindows bytes ws.length first = .ok ws := by
  induction ws generalizing first with
  | nil => rfl
  | cons w ws ih =>
    have head : imageWindow bytes (16 + 18 * first) = some w := valid 0 (Nat.succ_pos _)
    have tail : imageWindows bytes ws.length (first + 1) = .ok ws := ih fun k lt => by
      rw [Nat.add_assoc, Nat.add_comm 1 k]
      exact valid (k + 1) (Nat.succ_lt_succ lt)
    rw [List.length_cons, imageWindows, head, tail]

theorem fieldCheck_parameterBlock
    (invalid : paramsOf (paramBytesAt bytes 6) = none ∨ maskOf (byteAt bytes 13) = none) :
    fieldCheck bytes count = .error .parameterBlock := by
  unfold fieldCheck
  split
  case h_1 block alert => simp [block, alert] at invalid
  case h_2 => rfl

section Block

variable {params : Params} {mask : AlertMask} {mode : CatchMode} {retry : RetryLimit}

/-- With a valid parameter block the check goes on to the catch-all record (R187). -/
theorem fieldCheck_catchAll (block : paramsOf (paramBytesAt bytes 6) = some params)
    (alert : maskOf (byteAt bytes 13) = some mask)
    (invalid : modeOf (byteAt bytes 14) = none ∨ retryOf (byteAt bytes 15) = none) :
    fieldCheck bytes count = .error .catchAll := by
  unfold fieldCheck
  simp only [block, alert]
  split
  case h_1 rejects limit => simp [rejects, limit] at invalid
  case h_2 => rfl

/-- With a valid catch-all record it goes on to the window records (R187). -/
theorem fieldCheck_windows (block : paramsOf (paramBytesAt bytes 6) = some params)
    (alert : maskOf (byteAt bytes 13) = some mask) (rejects : modeOf (byteAt bytes 14) = some mode)
    (limit : retryOf (byteAt bytes 15) = some retry) : fieldCheck bytes count =
      (imageWindows bytes count 0).map fun windows =>
        { params := params, mask := mask, mode := mode, retry := retry, windows := windows } := by
  unfold fieldCheck
  simp only [block, alert, rejects, limit]
  cases imageWindows bytes count 0 <;> rfl

end Block

end Fields

/-! ## The checks before it -/

section Checks

variable {flash : List Byte}

/-- The bytes that the check word covers: 16 + 18N of them (R186). -/
def coveredBytes (flash : List Byte) : List Byte :=
  flashRead flash (16 + 18 * (flashByte flash 5).toNat)

/-- The check word that the image holds, after those bytes (R186). -/
def storedWord (flash : List Byte) : BitVec 16 :=
  flashByte flash (16 + 18 * (flashByte flash 5).toNat) ++ flashByte flash (17 + 18 * (flashByte flash 5).toNat)

theorem checkImage_blank (blank : flashRead flash 4 = [0xFF, 0xFF, 0xFF, 0xFF]) :
    checkImage flash = .error .noFlash :=
  if_pos blank

theorem checkImage_badMarker (driven : flashRead flash 4 ≠ [0xFF, 0xFF, 0xFF, 0xFF])
    (other : flashRead flash 4 ≠ [0x4F, 0x53, 0x48, 0x4C]) : checkImage flash = .error .badMarker :=
  (if_neg driven).trans (if_pos other)

/-- What follows a right marker: checks 2 to 5, then the field check (R186). -/
theorem checkImage_marked (marked : flashRead flash 4 = [0x4F, 0x53, 0x48, 0x4C]) : checkImage flash =
    if flashByte flash 4 ≠ 0x01 then .error .badVersion
    else if 8 < (flashByte flash 5).toNat then .error .badCount
    else if checkWord (coveredBytes flash) ≠ storedWord flash then .error .badCheck
    else (fieldCheck (coveredBytes flash) (flashByte flash 5).toNat).mapError .badField := by
  have driven : flashRead flash 4 ≠ [0xFF, 0xFF, 0xFF, 0xFF] := by
    rw [marked]
    decide
  refine (if_neg driven).trans ((if_neg (not_not_intro marked)).trans ?_)
  unfold coveredBytes storedWord
  cases fieldCheck (flashRead flash (16 + 18 * (flashByte flash 5).toNat)) (flashByte flash 5).toNat <;> rfl

/-- The marker, the version and the count pass (R186). -/
structure HeaderPasses (flash : List Byte) : Prop where
  marker : flashRead flash 4 = [0x4F, 0x53, 0x48, 0x4C]
  version : flashByte flash 4 = 0x01
  count : (flashByte flash 5).toNat ≤ 8

theorem HeaderPasses.badCheck (header : HeaderPasses flash)
    (differs : checkWord (coveredBytes flash) ≠ storedWord flash) : checkImage flash = .error .badCheck := by
  rw [checkImage_marked header.marker, if_neg (not_not_intro header.version), if_neg (Nat.not_lt.2 header.count),
    if_pos differs]

theorem HeaderPasses.fields (header : HeaderPasses flash)
    (same : checkWord (coveredBytes flash) = storedWord flash) : checkImage flash =
      (fieldCheck (coveredBytes flash) (flashByte flash 5).toNat).mapError .badField := by
  rw [checkImage_marked header.marker, if_neg (not_not_intro header.version), if_neg (Nat.not_lt.2 header.count),
    if_neg (not_not_intro same)]

end Checks

/-- Settles O7: the header's checks one after the other, and the parts of the field check by the first invalid one. -/
theorem loadChecksInOrder : Obligations.LoadChecksInOrder := by
  intro flash marker count covered word header
  refine ⟨checkImage_blank, checkImage_badMarker, fun marked version => ?_, fun marked version many => ?_,
    fun ⟨marked, version, few⟩ differs => HeaderPasses.badCheck ⟨marked, version, few⟩ differs,
    fun ⟨marked, version, few⟩ same => ?_⟩
  · exact (checkImage_marked marked).trans (if_pos version)
  · exact (checkImage_marked marked).trans ((if_neg (not_not_intro version)).trans (if_pos many))
  · have fields : checkImage flash = (fieldCheck covered count).mapError .badField :=
      HeaderPasses.fields ⟨marked, version, few⟩ same
    rw [fields]
    refine ⟨fun invalid => ?_, fun params mask block alert =>
      ⟨fun invalid => ?_, fun mode retry rejects limit => ⟨fun n within invalid before => ?_,
        fun windows length valid => ?_⟩⟩⟩
    · rw [fieldCheck_parameterBlock invalid]
      rfl
    · rw [fieldCheck_catchAll block alert invalid]
      rfl
    · have bad : imageWindows covered count 0 = .error (.window n) :=
        imageWindows_invalid (Nat.zero_le _) (by omega) invalid fun m _ lt => before ⟨m, by omega⟩ lt
      rw [fieldCheck_windows block alert rejects limit, bad]
      rfl
    · have good : imageWindows covered windows.length 0 = .ok windows :=
        imageWindows_valid fun k lt => by
          rw [Nat.zero_add]
          exact valid k (length ▸ lt)
      rw [fieldCheck_windows block alert rejects limit, ← length, good]
      rfl

end Sys2Proof.Machine
end
